-- ==== Sys2Proof/Word.lean ====
section
/-! DEFINITION. The word types of CTR-CORE (00_scope.md R5, R7, R8). Every value of the spec is an unsigned bit vector
of stated width. -/

namespace Sys2Proof

/-- Eight bits (R8). -/
abbrev Byte := BitVec 8

/-- A command word `CMD` (R45) or the `STATUS` register (R20). -/
abbrev Word := BitVec 32

/-- A 128-bit quantity: `NONCE`, `CTR`, `KSBUF`, `OPND`, `RESULT` (R5 `CTR_WIDTH`, R33). -/
abbrev Block := BitVec 128

/-- The 16 bytes of a block, byte 0 first (R8, R62). -/
abbrev Bytes16 := Vector Byte 16

/-- The 132-bit byte cursor (R16, R17). -/
abbrev Cursor := BitVec 132

end Sys2Proof
end

