-- ==== Sys2Proof/Syntax.lean ====
section
/-! DEFINITION. The commands of CTR-CORE (30_encoding.md R45 to R47), the raw command as it stands on the port, and the
statements of the assembler (30_encoding.md R54 to R57). -/

namespace Sys2Proof

/-- What the host presents: the command word and the 128-bit operand beside it (R21, R45, R46). -/
structure Command where
  cmd  : Word
  opnd : Block
deriving DecidableEq, Repr

/-- One constructor per row of the opcode map (R47), with the operands the row names. `OPND` is an operand of the rows
that read it (R46); assumption log entry 13. -/
inductive Instr where
  /-- `NEW`: construct an instance from a 16-byte nonce on `OPND` (R65). -/
  | new (nonce : Block)
  /-- `NEW_VAR`: construct an instance from a nonce of `len` bytes; `opnd` is the nonce when `len` is 16 (R66). -/
  | newVar (len : Byte) (opnd : Block)
  /-- `CURRENT_BLOCK`: return the keystream block at the cursor (R68). -/
  | currentBlock
  /-- `ADVANCE_BLOCK`: move the cursor forward one block (R69). -/
  | advanceBlock
  /-- `SEEK`: set the cursor to an absolute byte offset (R67). -/
  | seek (offset : Block)
  /-- `APPLY_BYTE`: XOR one byte with the keystream and advance the cursor (R75). -/
  | applyByte (din : Byte)
deriving DecidableEq, Repr

/-- A statement of the textual syntax as it is read, its numbers not yet checked against their ranges: the six commands
(R54) and the three pseudo-instructions (R55 to R57). -/
inductive AsmStmt where
  | new (nonce : Nat)
  | newVar (len : Nat) (nonce : Nat)
  | currentBlock
  | advanceBlock
  | seek (offset : Nat)
  | applyByte (din : Nat)
  | apply (bytes : List Nat)
  | rewind
  | newBytes (bytes : List Nat)
deriving DecidableEq, Repr

end Sys2Proof
end

