-- ==== Sys2Proof/WellFormed.lean ====
section
/-! DEFINITION. Which raw terms are well formed: command words (30_encoding.md R51) and assembler statements (R54 to
R57). A term of `Instr` is well formed by its type: `L` and `din` are any byte (R49), a nonce and an offset any 128-bit
value (R65, R67), so `Instr` needs no check of its own. -/

namespace Sys2Proof

/-- `OPC`, bits 31:28 of the command word (R45). -/
def Command.opc (c : Command) : BitVec 4 := c.cmd.extractLsb' 28 4

/-- `RSV`, bits 27:8 of the command word (R45). -/
def Command.rsv (c : Command) : BitVec 20 := c.cmd.extractLsb' 8 20

/-- `ARG8`, bits 7:0 of the command word (R45). -/
def Command.arg8 (c : Command) : Byte := c.cmd.extractLsb' 0 8

/-- R51 item 1 does not hold: `OPC` is one of the six assigned opcodes. -/
def Command.opcAssigned (c : Command) : Bool := 1 ≤ c.opc.toNat && c.opc.toNat ≤ 6

/-- R51 item 2 does not hold: the reserved field is zero. -/
def Command.rsvZero (c : Command) : Bool := c.rsv == 0

/-- R51 item 3 does not hold: `ARG8` is zero where `NEW`, `CURRENT_BLOCK`, `ADVANCE_BLOCK` and `SEEK` need it so. -/
def Command.arg8Zero (c : Command) : Bool :=
  c.arg8 == 0 || !(c.opc == 1 || c.opc == 3 || c.opc == 4 || c.opc == 5)

/-- A legal command word: none of the three items of R51 holds. -/
def Command.wellFormed (c : Command) : Bool := c.opcAssigned && c.rsvZero && c.arg8Zero

/-- An 8-bit operand is a number from 0 to 255 (R54). -/
def AsmStmt.byteOk (n : Nat) : Bool := n < 2 ^ 8

/-- A 128-bit operand is written with at most 32 hexadecimal digits (R54). -/
def AsmStmt.blockOk (n : Nat) : Bool := n < 2 ^ 128

/-- Every operand in its range, and exactly 16 bytes for `new_bytes` (R54, R57). -/
def AsmStmt.wellFormed : AsmStmt → Bool
  | .new nonce => AsmStmt.blockOk nonce
  | .newVar len nonce => AsmStmt.byteOk len && AsmStmt.blockOk nonce
  | .currentBlock => true
  | .advanceBlock => true
  | .seek offset => AsmStmt.blockOk offset
  | .applyByte din => AsmStmt.byteOk din
  | .apply bytes => bytes.all AsmStmt.byteOk
  | .rewind => true
  | .newBytes bytes => bytes.length == 16 && bytes.all AsmStmt.byteOk

end Sys2Proof
end

