-- ==== Sys2Proof/Decode.lean ====
section
/-! DEFINITION. Decoding a command, total on every command word (30_encoding.md R52), and the encoder, written from the
same tables (R45, R47, R54). There are no other forms and no other lengths (R53). -/

namespace Sys2Proof

/-- Why a command word is illegal (R51, its three items). All three raise the one code `ILLEGAL` (R91). -/
inductive IllegalReason where
  | reservedOpcode
  | rsvNonZero
  | arg8NonZero
deriving DecidableEq, Repr

/-- The outcome of decoding: a command, or `Illegal` with its reason (R52). -/
inductive Decoded where
  | instr (i : Instr)
  | illegal (r : IllegalReason)
deriving DecidableEq, Repr

/-- A command that takes no `ARG8`: the field must be zero (R51 item 3). -/
def plainForm (arg8 : Byte) (i : Instr) : Decoded :=
  if arg8 = 0 then .instr i else .illegal .arg8NonZero

/-- `decode` (R52). The operand goes to the commands that read it (R46). -/
def decode (c : Command) : Decoded :=
  if c.rsv ≠ 0 then .illegal .rsvNonZero
  else match c.opc.toNat with
    | 1 => plainForm c.arg8 (.new c.opnd)
    | 2 => .instr (.newVar c.arg8 c.opnd)
    | 3 => plainForm c.arg8 .currentBlock
    | 4 => plainForm c.arg8 .advanceBlock
    | 5 => plainForm c.arg8 (.seek c.opnd)
    | 6 => .instr (.applyByte c.arg8)
    | _ => .illegal .reservedOpcode

/-- A command word from its fields: `OPC` in 31:28, `RSV` zero in 27:8, `ARG8` in 7:0 (R45). -/
def commandWord (opc : BitVec 4) (arg8 : Byte) : Word := opc ++ (0#20 ++ arg8)

/-- The command of an instruction: the opcode map (R47), with `OPND` zero where it is ignored (R54). -/
def encode : Instr → Command
  | .new nonce => ⟨commandWord 1 0, nonce⟩
  | .newVar len opnd => ⟨commandWord 2 len, opnd⟩
  | .currentBlock => ⟨commandWord 3 0, 0⟩
  | .advanceBlock => ⟨commandWord 4 0, 0⟩
  | .seek offset => ⟨commandWord 5 0, offset⟩
  | .applyByte din => ⟨commandWord 6 din, 0⟩

/-- The command whose bits are the lowest `nbits` bits of `w`, all others zero: `CMD` is bits 31:0 and `OPND` the 128
bits above it. DESIGN CHOICE (the spec numbers the two apart): assumption log entry 14. -/
def commandOfTableWord (nbits w : Nat) : Command :=
  ⟨BitVec.ofNat 32 (w % 2 ^ nbits), BitVec.ofNat 128 (w % 2 ^ nbits / 2 ^ 32)⟩

/-- The instruction the decoder reads from a table word, none where it is illegal. -/
def decodeTableWord (nbits w : Nat) : Option Instr :=
  match decode (commandOfTableWord nbits w) with
  | .instr i => some i
  | .illegal _ => none

end Sys2Proof
end

