-- ==== Sys2Proof/Config.lean ====
section
/-! DEFINITION. What is fixed for one run and not decided by the spec: the block cipher under the instance's key
(00_scope.md R5, R6; 60_exceptions.md R101), and the free values of the registers and of the result port that the spec
leaves unspecified (10_state.md R21, R27). None has a body: no proof can learn a value of any of them. -/

namespace Sys2Proof

/-- A block cipher backend: `encrypt_block` under a fixed key, 16 bytes in, 16 bytes out; total and deterministic
because it is a function (R6, R62, R101). `KEY_BITS` and `BACKEND_KIND` (R5) are folded into it: the core sees neither. -/
abbrev Backend := Bytes16 → Bytes16

/-- The backend of this run (R5, R6, R103). DEDUCED: assumption log entry 2. -/
opaque Config.encryptBlock : Backend

/-- What `NONCE` holds after a reset between commands (R102 "unspecified"). Assumption log entry 7. -/
opaque Config.freeNonce : Nat → Block

/-- What `CTR` holds after a reset between commands (R102 "unspecified"). Assumption log entry 7. -/
opaque Config.freeCtr : Nat → Block

/-- What `BPOS` holds after a reset between commands (R102 "unspecified"). Assumption log entry 7. -/
opaque Config.freeBpos : Nat → BitVec 4

/-- What `KSBUF` holds after a reset between commands (R102 "unspecified"). Assumption log entry 7. -/
opaque Config.freeKsbuf : Nat → Block

/-- What the wires of `RESULT` carry while the spec calls its value unspecified (R21, R111). Assumption log entry 3. -/
opaque Config.freeResult : Nat → Block

end Sys2Proof
end

