-- ==== Sys2Proof/Machine/State.lean ====
section
/-! DEFINITION. The state of CTR-CORE (10_state.md R13 to R29), its interface (R21), and its value after reset (R27,
70_reset_and_hazards.md R102). There is no memory, no program counter and no register file to hold (R22, R23; 20_memory.md
R30). -/

namespace Sys2Proof.Machine

/-- `STATUS.ERR`: the outcome of the most recent command (R20, R87). Its 2-bit codes are in `Machine/Flags.lean`. -/
inductive ErrCode where
  /-- The command completed (R88). -/
  | ok
  /-- `NEW_VAR` with an unsupported nonce length (R89). -/
  | initError
  /-- A command that needs an instance, without one (R90). -/
  | noInstance
  /-- An illegal command word (R91). -/
  | illegal
deriving DecidableEq, Repr

/-- What the host does next. A command and a reset are the machine's inputs (R10, R21, R102). The other three are events
that the spec treats as `refuse` (93_implementation_defined.md IMP13 to IMP15); assumption log entry 10. -/
inductive Input where
  /-- The host presents a command (R21). -/
  | command (c : Command)
  /-- Reset between two commands (R102). -/
  | reset
  /-- Reset in the middle of the command `c` (R10, R102; IMP15). -/
  | resetInside (c : Command)
  /-- A second host interleaves the command `c` (R108; IMP13). -/
  | secondHost (c : Command)
  /-- The backend or its key changes during the run (R110; IMP14). -/
  | backendChange
deriving DecidableEq, Repr

/-- The state: the record of R29, the result port (R21), what the host does next, and the index of the next free value. -/
@[ext]
structure State where
  /-- `NONCE`, the initial counter value (R13). -/
  nonce   : Block
  /-- `CTR`, the counter value of the block the cursor is in (R14). -/
  ctr     : Block
  /-- `BPOS`, the byte cursor inside the block (R15). -/
  bpos    : BitVec 4
  /-- `KSBUF`, the cached keystream block (R18). -/
  ksbuf   : Block
  /-- `KSVALID`, the cache holds `KS(CTR)` (R18). -/
  ksvalid : Bool
  /-- `IVALID`, an instance exists (R19). -/
  ivalid  : Bool
  /-- `STATUS.ERR` (R20). -/
  err     : ErrCode
  /-- `RESULT` where the last command defined it (R21, R29). Assumption log entry 3. -/
  result  : Option Block
  /-- What the host does next, oldest first (R10, R21, R39). Assumption log entry 5. -/
  inputs  : List Input
  /-- The model's own: the index of the next free value. DESIGN CHOICE, assumption log entry 4. -/
  freeIdx : Nat
deriving DecidableEq, Repr

/-- Faults: there are none. CTR-CORE has no trap (R93) and no command stops it: "No item in this spec is `stuck`,
because every command completes" (93_implementation_defined.md, 60_exceptions.md R88). Assumption log entry 12. -/
inductive Fault where
deriving DecidableEq, Repr

/-- Refusals: what the model gives no meaning. Each is safe: nothing can be proved of what follows. -/
inductive Refusal where
  /-- Raised by an arm of `exec` whose instruction has no meaning yet; no arm does. Safe. -/
  | notModelled (mnemonic : String)
  /-- Raised by `runInput` for a reset inside a command (R102, R113; IMP15). Safe. -/
  | resetInsideCommand
  /-- Raised by `runInput` for a second host's command (R108; IMP13). Safe. -/
  | secondHost
  /-- Raised by `runInput` when the backend or key changes (R110; IMP14). Safe. -/
  | backendChanged
deriving DecidableEq, Repr

/-- The machine right after reset (R27, R102): no instance, an empty cache, `ERR = OK`, nothing on `RESULT`, nothing
presented yet. DESIGN CHOICE for `NONCE`, `CTR`, `BPOS`, `KSBUF`, which the spec leaves unspecified: zero, assumption
log entry 1. -/
def State.reset : State where
  nonce := 0
  ctr := 0
  bpos := 0
  ksbuf := 0
  ksvalid := false
  ivalid := false
  err := .ok
  result := none
  inputs := []
  freeIdx := 0

end Sys2Proof.Machine
end

