-- ==== Sys2Proof/Machine/Flags.lean ====
section
/-! DEFINITION. The status register (10_state.md R20) and its error codes (60_exceptions.md R87). They are the only flags
of CTR-CORE (R24). -/

namespace Sys2Proof.Machine

/-- The 2-bit code of an outcome (R20, R87). -/
def ErrCode.code : ErrCode → BitVec 2
  | .ok => 0
  | .initError => 1
  | .noInstance => 2
  | .illegal => 3

/-- `STATUS` as the host reads it: `ERR` in 1:0, `IV` (the mirror of `IVALID`) in 2, zero above (R20, R29). -/
def State.status (s : State) : Word := 0#29 ++ (BitVec.ofBool s.ivalid ++ s.err.code)

end Sys2Proof.Machine
end

