-- ==== Sys2Proof/Machine/Operands.lean ====
section
/-! DEFINITION. The operand forms and the arithmetic of CTR-CORE: byte lanes (00_scope.md R8, 20_memory.md R33), counter
arithmetic modulo 2^128 (40_counter_engine.md R59 to R61), the `SEEK` operand (30_encoding.md R50), the nonce length
(R66), and the keystream block (R62). -/

namespace Sys2Proof.Machine

/-- `lane_j(v)`: byte `j` of a 128-bit value, bits 127-8j to 120-8j, byte 0 the most significant (R8). -/
def lane (j : BitVec 4) (v : Block) : Byte := v.extractLsb' (120 - 8 * j.toNat) 8

/-- `be16(v)`: the 16 bytes of a value, most significant first (R8, R32). -/
def be16 (v : Block) : Bytes16 :=
  #v[lane 0 v, lane 1 v, lane 2 v, lane 3 v, lane 4 v, lane 5 v, lane 6 v, lane 7 v,
     lane 8 v, lane 9 v, lane 10 v, lane 11 v, lane 12 v, lane 13 v, lane 14 v, lane 15 v]

/-- `from_be16(b_0 .. b_15)`: the value whose byte `j` is `b_j` (R8). -/
def fromBe16 (b : Bytes16) : Block :=
  b[0] ++ (b[1] ++ (b[2] ++ (b[3] ++ (b[4] ++ (b[5] ++ (b[6] ++ (b[7] ++
  (b[8] ++ (b[9] ++ (b[10] ++ (b[11] ++ (b[12] ++ (b[13] ++ (b[14] ++ b[15]))))))))))))))

/-- `E(c)`: the backend applied to the big-endian bytes of `c`, its 16 output bytes read back into lanes 0 to 15 (R62). -/
def encryptWord (B : Backend) (c : Block) : Block := fromBe16 (B (be16 c))

/-- `inc(c)`: one more, modulo 2^128 (R60). -/
def inc (c : Block) : Block := c + 1

/-- One byte of the byte-array increment: the byte with the carry in added, and the carry out (R60). -/
def incByte (b : Byte) (carry : Bool) : Byte × Bool := (b + (BitVec.ofBool carry).setWidth 8, carry && b == 0xff)

/-- The byte-array increment over bytes listed least significant first, the carry going up (R60). -/
def incBytesUp : List Byte → Bool → List Byte
  | [], _ => []
  | b :: rest, carry => (incByte b carry).1 :: incBytesUp rest (incByte b carry).2

/-- The byte-array form of the increment: carry in at byte 15, toward byte 0, the carry out of byte 0 dropped (R60). -/
def incBytes (b : Bytes16) : List Byte := (incBytesUp b.toList.reverse true).reverse

/-- `blk`, the 124-bit block index of a `SEEK` operand (R50). -/
def seekBlk (opnd : Block) : BitVec 124 := opnd.extractLsb' 4 124

/-- `pos`, the byte position of a `SEEK` operand (R50). -/
def seekPos (opnd : Block) : BitVec 4 := opnd.extractLsb' 0 4

/-- The counter of block `blk` of the stream that starts at `nonce` (R61). -/
def blockCounter (nonce : Block) (blk : BitVec 124) : Block := nonce + blk.setWidth 128

/-- The nonce lengths `NEW_VAR` accepts: exactly 16 (R5, R66; 92_eei_decisions.md D6; assumption log entry 15). -/
def nonceLengthSupported (len : Byte) : Bool := len == 16

/-- The keystream byte at cursor `c` of the stream that starts at `nonce` (R77). -/
def keystreamByteWith (B : Backend) (nonce : Block) (c : Cursor) : Byte :=
  lane (c.setWidth 4) (encryptWord B (nonce + (c >>> 4).setWidth 128))

/-- `KS(c) = E(c)` under the backend of this run (R62). -/
def keystream (c : Block) : Block := encryptWord Config.encryptBlock c

/-- `KSB(N, c)` under the backend of this run (R77). -/
def keystreamByte (nonce : Block) (c : Cursor) : Byte := keystreamByteWith Config.encryptBlock nonce c

end Sys2Proof.Machine
end

