-- ==== Sys2Proof/Machine/Ops.lean ====
section
/-! DEFINITION. The shared operations: completing a command, raising an error (60_exceptions.md R87), the instance check
(40_counter_engine.md R64), construction, the keystream cache (10_state.md R18), and the derived cursor (R16). -/

namespace Sys2Proof.Machine

/-- The block index of the cursor, `CTR` minus `NONCE` modulo 2^128 (R16). -/
def State.blkIdx (s : State) : Block := s.ctr - s.nonce

/-- The byte cursor: 16 times the block index plus `BPOS`, in 132 bits (R16). -/
def State.cursor (s : State) : Cursor := s.blkIdx.setWidth 132 * 16 + s.bpos.setWidth 132

/-- What the wires of `RESULT` carry: the defined result, else a free value (R21, R111). No command reads it; assumption
log entry 3. -/
def State.resultPort (s : State) : Block := s.result.getD (Config.freeResult s.freeIdx)

/-- The end of a command that completes: `ERR = OK`, and the result it drives, if any (R21, R64, R88). -/
def complete (r : Option Block) (s : State) : State :=
  { s with err := .ok, result := r, freeIdx := s.freeIdx + 1 }

/-- `raise Err(code)`: the code is written, `RESULT` is unspecified, and no other state changes (R9, R87). There is no
trap entry and so no return from one (R93, R94). -/
def raiseErr (code : ErrCode) (s : State) : State :=
  { s with err := code, result := none, freeIdx := s.freeIdx + 1 }

/-- The check of every command but `NEW` and `NEW_VAR`: without an instance it raises `NO_INSTANCE` (R19, R64, R90). -/
def requireInstance (body : State → State) (s : State) : Host.Outcome State Fault Refusal :=
  .next (if s.ivalid then body s else raiseErr .noInstance s)

/-- Construction: the counter starts at the nonce, the cursor at 0, with an empty cache and a live instance (R65). -/
def construct (nonce : Block) (s : State) : State :=
  complete none { s with nonce := nonce, ctr := nonce, bpos := 0, ksvalid := false, ivalid := true }

/-- Regenerate on demand: with `KSVALID = 0` the cache takes `E(CTR)` (R18, R68, R75). -/
def fillCache (B : Backend) (s : State) : State :=
  if s.ksvalid then s else { s with ksbuf := encryptWord B s.ctr, ksvalid := true }

/-- `CTR` moves to the next block and the cache is invalidated (R18, R60, R69, R75). -/
def nextBlock (s : State) : State := { s with ctr := inc s.ctr, ksvalid := false }

/-- The cursor moves on by one byte, into the next block after byte 15 (R75, R81). -/
def advanceByte (s : State) : State :=
  if s.bpos = 15 then nextBlock { s with bpos := 0 } else { s with bpos := s.bpos + 1 }

/-- A reset between two commands: no instance, an empty cache, `ERR = OK`, no result; `NONCE`, `CTR`, `BPOS` and `KSBUF`
become unspecified, which is a free value for each (R27, R102; assumption log entry 7). The backend keeps its key (R103). -/
def takeReset (s : State) : State :=
  { s with
    nonce := Config.freeNonce s.freeIdx
    ctr := Config.freeCtr s.freeIdx
    bpos := Config.freeBpos s.freeIdx
    ksbuf := Config.freeKsbuf s.freeIdx
    ksvalid := false
    ivalid := false
    err := .ok
    result := none
    freeIdx := s.freeIdx + 1 }

/-- What the host does next, taken off the list; none when it presents nothing (R10, R39). -/
def fetchInput (s : State) : Option (Input × State) :=
  match s.inputs with
  | [] => none
  | x :: rest => some (x, { s with inputs := rest })

/-- Put an input first, so that the next step takes it. -/
def presentInput (x : Input) (s : State) : State := { s with inputs := x :: s.inputs }

end Sys2Proof.Machine
end

