-- ==== Sys2Proof/Machine/Applier.lean ====
section
/-! DEFINITION. The Keystream Applier's command (41_keystream_applier.md R75). -/

namespace Sys2Proof.Machine

/-- The effect of `APPLY_BYTE` with an instance: fill the cache, XOR the data byte with byte `BPOS` of the block, drive
the zero-extended byte on `RESULT`, move the cursor on by one byte (R49, R75, R81). -/
def applyByteWith (B : Backend) (din : Byte) (s : State) : State :=
  complete (some ((din ^^^ lane s.bpos (fillCache B s).ksbuf).setWidth 128)) (advanceByte (fillCache B s))

/-- `APPLY_BYTE` (R75). -/
def execApplyByte (din : Byte) (s : State) : Host.Outcome State Fault Refusal :=
  requireInstance (applyByteWith Config.encryptBlock din) s

end Sys2Proof.Machine
end

