-- ==== Sys2Proof/Machine/Engine.lean ====
section
/-! DEFINITION. The Counter State Engine's commands (40_counter_engine.md R65 to R69). The check for an illegal word comes
before any of these, in `runCommand` (R64, R92). An operation that calls the backend takes it as an argument, so that the
worked examples of the spec, which use the identity backend (R12), are examples of it too. -/

namespace Sys2Proof.Machine

/-- `NEW` (R65). It never fails and needs no instance. -/
def execNew (nonce : Block) (s : State) : Host.Outcome State Fault Refusal :=
  .next (construct nonce s)

/-- `NEW_VAR` (R66): construction for a supported length, else `INIT_ERROR` with nothing else changed. -/
def execNewVar (len : Byte) (opnd : Block) (s : State) : Host.Outcome State Fault Refusal :=
  .next (if nonceLengthSupported len then construct opnd s else raiseErr .initError s)

/-- The effect of `SEEK` with an instance (R67). -/
def seekTo (offset : Block) (s : State) : State :=
  complete none { s with ctr := blockCounter s.nonce (seekBlk offset), bpos := seekPos offset, ksvalid := false }

/-- `SEEK` (R67). -/
def execSeek (offset : Block) (s : State) : Host.Outcome State Fault Refusal :=
  requireInstance (seekTo offset) s

/-- The effect of `CURRENT_BLOCK` with an instance: fill the cache, drive it on `RESULT` (R68). -/
def currentBlockWith (B : Backend) (s : State) : State :=
  complete (some (fillCache B s).ksbuf) (fillCache B s)

/-- `CURRENT_BLOCK` (R68). -/
def execCurrentBlock (s : State) : Host.Outcome State Fault Refusal :=
  requireInstance (currentBlockWith Config.encryptBlock) s

/-- The effect of `ADVANCE_BLOCK` with an instance (R69). -/
def advanceOneBlock (s : State) : State := complete none (nextBlock s)

/-- `ADVANCE_BLOCK` (R69). -/
def execAdvanceBlock (s : State) : Host.Outcome State Fault Refusal :=
  requireInstance advanceOneBlock s

end Sys2Proof.Machine
end

