-- ==== Sys2Proof/Machine/Dispatch.lean ====
section
/-! DEFINITION. One arm per command, each a direct call of its meaning. -/

namespace Sys2Proof.Machine

def exec (i : Instr) (s : State) : Host.Outcome State Fault Refusal :=
  match i with
  | .new nonce => Sys2Proof.Machine.execNew nonce s
  | .newVar len opnd => Sys2Proof.Machine.execNewVar len opnd s
  | .currentBlock => Sys2Proof.Machine.execCurrentBlock s
  | .advanceBlock => Sys2Proof.Machine.execAdvanceBlock s
  | .seek offset => Sys2Proof.Machine.execSeek offset s
  | .applyByte din => Sys2Proof.Machine.execApplyByte din s

end Sys2Proof.Machine
end

