-- ==== Sys2Proof/Machine/Inputs.lean ====
section
/-! DEFINITION. Running one input of the host (00_scope.md R10; 40_counter_engine.md R64; 70_reset_and_hazards.md R102,
R108, R110). -/

namespace Sys2Proof.Machine

/-- One command: an illegal word raises `ILLEGAL` before anything else is looked at (R64, R91, R92), and a legal one runs.
DESIGN CHOICE (IMP11 allows the report): assumption log entry 8. -/
def runCommand (c : Command) (s : State) : Host.Outcome State Fault Refusal :=
  match decode c with
  | .instr i => exec i s
  | .illegal _ => .next (raiseErr .illegal s)

/-- One input of the host. -/
def runInput (x : Input) (s : State) : Host.Outcome State Fault Refusal :=
  match x with
  | .command c => runCommand c s
  | .reset => .next (takeReset s)
  | .resetInside _ => .refused .resetInsideCommand
  | .secondHost _ => .refused .secondHost
  | .backendChange => .refused .backendChanged

/-- One step: the next input runs; with none the machine keeps its state (R95, R100). DESIGN CHOICE: assumption log
entry 6. -/
def runNext (s : State) : Host.Outcome State Fault Refusal :=
  match fetchInput s with
  | none => .next s
  | some (x, s') => runInput x s'

end Sys2Proof.Machine
end

