-- ==== Sys2Proof/Machine/Step.lean ====
section
/-! DEFINITION. One step of the machine, and how a table word is placed where the next step takes it. -/

namespace Sys2Proof.Machine

/-- One step: one input of the host, to completion (00_scope.md R10; 20_memory.md R37, R39). -/
def step (s : State) : Host.Outcome State Fault Refusal := runNext s

/-- The command of a table word, presented so that the very next step runs it (assumption log entries 5 and 14). -/
def State.withFetchWord (s : State) (nbits w : Nat) : State :=
  presentInput (.command (commandOfTableWord nbits w)) s

end Sys2Proof.Machine
end

