-- ==== Sys2Proof/Machine/HostOps.lean ====
section
/-! DEFINITION. What a host makes of commands: sequences with their observation (70_reset_and_hazards.md R113), and the
pseudo-instructions (30_encoding.md R55 to R57), among them `apply_keystream` over a buffer (41_keystream_applier.md
R76). The buffer is the host's memory, not the core's (20_memory.md R31). -/

namespace Sys2Proof.Machine

/-- What the host observes of one command: `STATUS`, and `RESULT` where it is defined (R10, R111, R113). -/
structure Response where
  status : Word
  result : Option Block
deriving DecidableEq, Repr

/-- The observation after a command. -/
def State.response (s : State) : Response := ⟨s.status, s.result⟩

/-- A sequence of commands, in issue order: the responses, one per command, and the final state (R39, R113). -/
def runCommands : List Command → State → Host.Outcome (List Response × State) Fault Refusal
  | [], s => .next ([], s)
  | c :: rest, s =>
    match runCommand c s with
    | .next t =>
      match runCommands rest t with
      | .next (rs, u) => .next (t.response :: rs, u)
      | .fault r => .fault r
      | .refused r => .refused r
    | .fault r => .fault r
    | .refused r => .refused r

/-- A run: reset, then a finite sequence of commands (R113). -/
def runFromReset (cs : List Command) : Host.Outcome (List Response × State) Fault Refusal :=
  runCommands cs State.reset

/-- `apply b_0, ..., b_(n-1)`: one `APPLY_BYTE` per byte, in order (R55). -/
def applyExpansion (bytes : List Byte) : List Command := bytes.map fun b => encode (.applyByte b)

/-- `rewind` is `seek 0` (R56). -/
def rewindExpansion : List Command := [encode (.seek 0)]

/-- `new_bytes b_0, ..., b_15` is `new` of the value with those bytes (R57). -/
def newBytesExpansion (b : Bytes16) : List Command := [encode (.new (fromBe16 b))]

/-- `RESULT[7:0]`, the byte the host stores back, where a result is defined (R49, R55). -/
def Response.byte (r : Response) : Option Byte := r.result.map fun v => v.extractLsb' 0 8

/-- `apply_keystream(buffer)`: the bytes the host stores back at indices 0, 1, …, and the state afterwards (R31, R55,
R76). An entry is none where the core drove no result. -/
def applyBuffer (bytes : List Byte) (s : State) : Host.Outcome (List (Option Byte) × State) Fault Refusal :=
  match runCommands (applyExpansion bytes) s with
  | .next (rs, t) => .next (rs.map Response.byte, t)
  | .fault r => .fault r
  | .refused r => .refused r

end Sys2Proof.Machine
end

