-- ==== Sys2Proof/Machine/Assembler.lean ====
section
/-! DEFINITION. The textual syntax (30_encoding.md R54 to R57): a statement to its commands, and a line of text to a
statement. Text is a list of characters. The lexical points R54 leaves open are assumption log entry 16. -/

namespace Sys2Proof.Machine

/-- The 16 bytes of a `new_bytes` statement, byte 0 first. -/
def bytes16OfNats (bytes : List Nat) : Bytes16 := Vector.ofFn fun i : Fin 16 => BitVec.ofNat 8 (bytes.getD i.val 0)

/-- The commands of a statement: the table of R54 and the expansions of R55 to R57. -/
def expandStmt : AsmStmt → List Command
  | .new nonce => [encode (.new (BitVec.ofNat 128 nonce))]
  | .newVar len nonce => [encode (.newVar (BitVec.ofNat 8 len) (BitVec.ofNat 128 nonce))]
  | .currentBlock => [encode .currentBlock]
  | .advanceBlock => [encode .advanceBlock]
  | .seek offset => [encode (.seek (BitVec.ofNat 128 offset))]
  | .applyByte din => [encode (.applyByte (BitVec.ofNat 8 din))]
  | .apply bytes => applyExpansion (bytes.map (BitVec.ofNat 8))
  | .rewind => rewindExpansion
  | .newBytes bytes => newBytesExpansion (bytes16OfNats bytes)

/-- The commands of a well-formed statement; none for an operand out of its range (R54, R57). -/
def assemble (a : AsmStmt) : Option (List Command) := if a.wellFormed then some (expandStmt a) else none

/-- Blanks between the parts of a line. -/
def isBlank (c : Char) : Bool := c == ' ' || c == '\t'

/-- A line up to its comment, which `;` starts (R54). -/
def stripComment (line : List Char) : List Char := line.takeWhile fun c => c != ';'

/-- Without blanks at either end. -/
def trim (cs : List Char) : List Char := ((cs.dropWhile isBlank).reverse.dropWhile isBlank).reverse

/-- The operands of a statement: what stands between commas, trimmed; no operand for no text. -/
def splitOperands (cs : List Char) : List (List Char) :=
  if cs.isEmpty then [] else (cs.splitOn ',').map trim

/-- The value of a hexadecimal digit, in either case. -/
def hexDigit (c : Char) : Option Nat :=
  if '0' ≤ c ∧ c ≤ '9' then some (c.toNat - '0'.toNat)
  else if 'a' ≤ c ∧ c ≤ 'f' then some (c.toNat - 'a'.toNat + 10)
  else if 'A' ≤ c ∧ c ≤ 'F' then some (c.toNat - 'A'.toNat + 10)
  else none

/-- The value of a decimal digit. -/
def decDigit (c : Char) : Option Nat := if '0' ≤ c ∧ c ≤ '9' then some (c.toNat - '0'.toNat) else none

/-- A number written most significant digit first, continuing from `acc`. -/
def digitsFrom (base : Nat) (digit : Char → Option Nat) : List Char → Nat → Option Nat
  | [], acc => some acc
  | c :: rest, acc =>
    match digit c with
    | some d => digitsFrom base digit rest (acc * base + d)
    | none => none

/-- `0x` and 1 to 32 hexadecimal digits: a 128-bit operand (R54). -/
def operand128 : List Char → Option Nat
  | '0' :: 'x' :: d :: ds => if ds.length < 32 then digitsFrom 16 hexDigit (d :: ds) 0 else none
  | _ => none

/-- A decimal or `0x` number: an 8-bit operand, its range checked by `assemble` (R54). -/
def operand8 : List Char → Option Nat
  | '0' :: 'x' :: d :: ds => digitsFrom 16 hexDigit (d :: ds) 0
  | d :: ds => digitsFrom 10 decDigit (d :: ds) 0
  | [] => none

/-- A statement of one 128-bit operand. -/
def oneBlock (k : Nat → AsmStmt) : List (List Char) → Option AsmStmt
  | [a] => (operand128 a).map k
  | _ => none

/-- A statement of no operand. -/
def noOperand (a : AsmStmt) : List (List Char) → Option AsmStmt
  | [] => some a
  | _ => none

/-- The statement with this name and these operands (R54 to R57). -/
def parseNamed (name : List Char) (ops : List (List Char)) : Option AsmStmt :=
  if name = "new".toList then oneBlock .new ops
  else if name = "new_var".toList then
    match ops with
    | [a, b] => (operand8 a).bind fun len => (operand128 b).map fun nonce => .newVar len nonce
    | _ => none
  else if name = "current_block".toList then noOperand .currentBlock ops
  else if name = "advance_block".toList then noOperand .advanceBlock ops
  else if name = "seek".toList then oneBlock .seek ops
  else if name = "apply_byte".toList then
    match ops with
    | [a] => (operand8 a).map .applyByte
    | _ => none
  else if name = "apply".toList then (ops.mapM operand8).map .apply
  else if name = "rewind".toList then noOperand .rewind ops
  else if name = "new_bytes".toList then (ops.mapM operand8).map .newBytes
  else none

/-- What a line holds. -/
inductive AsmLine where
  /-- Nothing, or only a comment. -/
  | empty
  | stmt (a : AsmStmt)
  | bad
deriving DecidableEq, Repr

/-- Read one line: one command per line, `;` starts a comment (R54). -/
def parseLine (line : List Char) : AsmLine :=
  let body := trim (stripComment line)
  if body.isEmpty then .empty
  else
    match parseNamed (body.takeWhile fun c => !isBlank c) (splitOperands (trim (body.dropWhile fun c => !isBlank c))) with
    | some a => .stmt a
    | none => .bad

/-- The commands of a line of text: none when it is not a well-formed line. -/
def assembleLine (line : List Char) : Option (List Command) :=
  match parseLine line with
  | .empty => some []
  | .stmt a => assemble a
  | .bad => none

/-- The commands of a program text, in order. -/
def assembleProgram : List (List Char) → Option (List Command)
  | [] => some []
  | l :: ls => (assembleLine l).bind fun cs => (assembleProgram ls).map fun ds => cs ++ ds

end Sys2Proof.Machine
end

