-- ==== Sys2Proof/Safety.lean ====
section
/-! DEFINITION. The terms claims are stated in: the machine's invariant, agreement of two states, and what a command
leaves alone. -/

namespace Sys2Proof.Safety

open Sys2Proof.Machine

/-- The cache's invariant: `KSVALID = 1` means `KSBUF = KS(CTR)` (10_state.md R18). -/
def CacheOk (s : State) : Prop := s.ksvalid = true → s.ksbuf = keystream s.ctr

/-- The machine's invariant. Every step keeps it and it holds at reset. -/
structure Inv (s : State) : Prop where
  /-- The cache holds the block at the counter (R18). -/
  cache : CacheOk s
  /-- Only an instance has a cached block (R18, R64, R102). -/
  cacheLive : s.ksvalid = true → s.ivalid = true
  /-- `NO_INSTANCE` is reported only where there is none (R90). -/
  errLive : s.err = .noInstance → s.ivalid = false
  /-- A defined result comes from an instance and an `OK` command (R21, R111). -/
  resultOk : s.result.isSome = true → s.err = .ok ∧ s.ivalid = true

/-- Two states agree on everything but the cache (R18). -/
structure SameButCache (s t : State) : Prop where
  nonce : s.nonce = t.nonce
  ctr : s.ctr = t.ctr
  bpos : s.bpos = t.bpos
  ivalid : s.ivalid = t.ivalid
  err : s.err = t.err
  result : s.result = t.result
  inputs : s.inputs = t.inputs
  freeIdx : s.freeIdx = t.freeIdx

/-- Two states look the same to the host (R27, R70): the same `STATUS` and defined `RESULT`, the same inputs to come, and the
same nonce, counter and cursor once there is an instance. -/
structure LooksSame (s t : State) : Prop where
  ivalid : s.ivalid = t.ivalid
  err : s.err = t.err
  result : s.result = t.result
  inputs : s.inputs = t.inputs
  nonce : s.ivalid = true → s.nonce = t.nonce
  ctr : s.ivalid = true → s.ctr = t.ctr
  bpos : s.ivalid = true → s.bpos = t.bpos

/-- A state some run from reset leads to: a finite sequence of inputs, none of them refused (R102, R113). -/
def Reached (s : State) : Prop :=
  ∃ (xs : List Input) (n : Nat), Sys2Proof.core.run n { State.reset with inputs := xs } = .next s

/-- The commands that need an instance (R90). -/
def needsInstance : Instr → Bool
  | .new _ => false
  | .newVar _ _ => false
  | .currentBlock => true
  | .advanceBlock => true
  | .seek _ => true
  | .applyByte _ => true

/-- The outcome of a command by the priority of R92: `ILLEGAL`, then `NO_INSTANCE`, then `INIT_ERROR`, then `OK`. -/
def expectedErr (c : Command) (s : State) : ErrCode :=
  if c.wellFormed = false then .illegal
  else if 3 ≤ c.opc.toNat ∧ s.ivalid = false then .noInstance
  else if c.opc = 2 ∧ c.arg8 ≠ 16 then .initError
  else .ok

end Sys2Proof.Safety
end

