-- ==== Sys2Proof/Certificates/Slice0/Obligations.lean ====
section
/-! DEFINITION. The statements for the provers. Each docstring names the rule of spec/ it formalises. No statement rests on
the value of `freeIdx` or of a free value; a result that the spec calls unspecified appears as `result := none`. -/

open Sys2Proof Sys2Proof.Machine Sys2Proof.Safety

/-! ### Encoding -/

/-- The worked encodings of 30_encoding.md R58: text, command word, operand; and the two illegal words. -/
def Obligations.WorkedEncodingsAreReadAsWritten : Prop :=
  (assembleLine "new 0x1affffffffffffffffffffffffffffff".toList
      = some [⟨0x10000000, 0x1affffffffffffffffffffffffffffff⟩]
    ∧ decode ⟨0x10000000, 0x1affffffffffffffffffffffffffffff⟩ = .instr (.new 0x1affffffffffffffffffffffffffffff)) ∧
  (assembleLine "new_var 16, 0x000102030405060708090a0b0c0d0e0f".toList
      = some [⟨0x20000010, 0x000102030405060708090a0b0c0d0e0f⟩]
    ∧ decode ⟨0x20000010, 0x000102030405060708090a0b0c0d0e0f⟩
      = .instr (.newVar 16 0x000102030405060708090a0b0c0d0e0f)) ∧
  (assembleLine "new_var 12, 0x0".toList = some [⟨0x2000000C, 0⟩] ∧ decode ⟨0x2000000C, 0⟩ = .instr (.newVar 12 0)) ∧
  (assembleLine "current_block".toList = some [⟨0x30000000, 0⟩] ∧ decode ⟨0x30000000, 0⟩ = .instr .currentBlock) ∧
  (assembleLine "advance_block".toList = some [⟨0x40000000, 0⟩] ∧ decode ⟨0x40000000, 0⟩ = .instr .advanceBlock) ∧
  (assembleLine "seek 0x11".toList = some [⟨0x50000000, 0x11⟩] ∧ decode ⟨0x50000000, 0x11⟩ = .instr (.seek 0x11)
    ∧ seekBlk 0x11 = 1 ∧ seekPos 0x11 = 1) ∧
  (assembleLine "apply_byte 0xff".toList = some [⟨0x600000FF, 0⟩] ∧ decode ⟨0x600000FF, 0⟩ = .instr (.applyByte 0xff)) ∧
  (∀ o : Block, ∃ r, decode ⟨0x70000000, o⟩ = .illegal r) ∧
  (∀ o : Block, ∃ r, decode ⟨0x10000100, o⟩ = .illegal r)

/-- Decoding the encoding of an instruction gives it back, with every operand at every value (R45 to R47, R52). -/
def Obligations.DecodingAnEncodedInstructionGivesItBack : Prop :=
  ∀ i : Instr, decode (encode i) = .instr i

/-- A legal command has one meaning and each meaning one command word; the operand is kept where it is read (R46, R47,
R52). -/
def Obligations.LegalCommandsAreTheEncodingsOfTheirMeaning : Prop :=
  ∀ (c : Command) (i : Instr), decode c = .instr i →
    (encode i).cmd = c.cmd ∧
    match i with
    | .new nonce => nonce = c.opnd
    | .newVar _ opnd => opnd = c.opnd
    | .seek offset => offset = c.opnd
    | .currentBlock => True
    | .advanceBlock => True
    | .applyByte _ => True

/-- A command word is illegal exactly when one of the three items of R51 holds, whatever the operand; it then raises
`ILLEGAL` and changes no other state (R51, R91). -/
def Obligations.IllegalWordsAreTheThreeItemsAndRaiseIllegal : Prop :=
  ∀ c : Command,
    ((∃ r, decode c = .illegal r) ↔
      ((c.cmd.extractLsb 31 28 = 0 ∨ 7 ≤ (c.cmd.extractLsb 31 28).toNat) ∨ c.cmd.extractLsb 27 8 ≠ 0 ∨
        (c.cmd.extractLsb 7 0 ≠ 0 ∧ (c.cmd.extractLsb 31 28).toNat ∈ [1, 3, 4, 5]))) ∧
    ∀ s : State, (∃ r, decode c = .illegal r) →
      runCommand c s = .next { s with err := .illegal, result := none, freeIdx := s.freeIdx + 1 }

/-- An ignored operand has no effect: for `CURRENT_BLOCK`, `ADVANCE_BLOCK`, `APPLY_BYTE`, and for `NEW_VAR` with a length
other than 16 (R46). -/
def Obligations.IgnoredOperandsHaveNoEffect : Prop :=
  ∀ (w : Word) (o₁ o₂ : Block) (s : State),
    (w.extractLsb 31 28 = 3 ∨ w.extractLsb 31 28 = 4 ∨ w.extractLsb 31 28 = 6 ∨
      (w.extractLsb 31 28 = 2 ∧ w.extractLsb 7 0 ≠ 16)) →
    runCommand ⟨w, o₁⟩ s = runCommand ⟨w, o₂⟩ s

/-- The pseudo-instructions expand to the commands R55 to R57 name, written out as words. -/
def Obligations.PseudoInstructionsExpandToTheirCommands : Prop :=
  (∀ bytes : List Byte, applyExpansion bytes = bytes.map fun b => ⟨0x60000000 ||| b.setWidth 32, 0⟩) ∧
  rewindExpansion = [⟨0x50000000, 0⟩] ∧
  ∀ b : Bytes16, newBytesExpansion b = [⟨0x10000000, fromBe16 b⟩]

/-- The table of the textual syntax (R54): each statement with operands in range assembles to its word and operand, and an
operand out of range assembles to nothing. -/
def Obligations.StatementsAssembleToTheSyntaxTable : Prop :=
  (∀ n, n < 2 ^ 128 → assemble (.new n) = some [⟨0x10000000, BitVec.ofNat 128 n⟩]) ∧
  (∀ l n, l < 256 → n < 2 ^ 128 →
    assemble (.newVar l n) = some [⟨0x20000000 ||| BitVec.ofNat 32 l, BitVec.ofNat 128 n⟩]) ∧
  assemble .currentBlock = some [⟨0x30000000, 0⟩] ∧
  assemble .advanceBlock = some [⟨0x40000000, 0⟩] ∧
  (∀ n, n < 2 ^ 128 → assemble (.seek n) = some [⟨0x50000000, BitVec.ofNat 128 n⟩]) ∧
  (∀ d, d < 256 → assemble (.applyByte d) = some [⟨0x60000000 ||| BitVec.ofNat 32 d, 0⟩]) ∧
  (∀ n, 2 ^ 128 ≤ n → assemble (.new n) = none ∧ assemble (.seek n) = none ∧ ∀ l, assemble (.newVar l n) = none) ∧
  (∀ d, 256 ≤ d → assemble (.applyByte d) = none ∧ ∀ n, assemble (.newVar d n) = none)

/-! ### One step -/

/-- A step runs the decoded command at the state with that command taken; an illegal word raises `ILLEGAL` there; with
nothing presented the state stays (assumption log entries 5 and 6; R10, R64). -/
def Obligations.StepRunsTheDecodedCommand : Prop :=
  (∀ (s : State) (c : Command) (rest : List Input) (i : Instr),
    s.inputs = .command c :: rest → decode c = .instr i → step s = exec i { s with inputs := rest }) ∧
  (∀ (s : State) (c : Command) (rest : List Input) (r : IllegalReason),
    s.inputs = .command c :: rest → decode c = .illegal r →
      step s = .next { s with inputs := rest, err := .illegal, result := none, freeIdx := s.freeIdx + 1 }) ∧
  ∀ s : State, s.inputs = [] → step s = .next s

/-- A table word that decodes is run by the very next step, from any state (assumption log entries 5 and 14). -/
def Obligations.StepRunsThePlacedTableWord : Prop :=
  ∀ (s : State) (nbits w : Nat) (i : Instr),
    decodeTableWord nbits w = some i → step (s.withFetchWord nbits w) = exec i s

/-- After reset: `IVALID = 0`, `KSVALID = 0`, `STATUS = 0`, no result; at the start, and after a reset between two
commands, from any state (R27, R102). That the inputs to come are kept is the model's choice: assumption log entries 5
and 7. -/
def Obligations.ResetLeavesNoInstance : Prop :=
  (State.reset.ivalid = false ∧ State.reset.ksvalid = false ∧ State.reset.status = 0 ∧ State.reset.result = none) ∧
  ∀ (s : State) (rest : List Input), s.inputs = .reset :: rest →
    ∃ t, step s = .next t ∧ t.ivalid = false ∧ t.ksvalid = false ∧ t.status = 0 ∧ t.result = none ∧ t.inputs = rest

/-- What the spec gives no meaning is refused by name: a reset inside a command, a second host's command, a change of
backend (R102, R108, R110, R113; assumption log entry 10). -/
def Obligations.EventsWithoutMeaningAreRefused : Prop :=
  ∀ (s : State) (c : Command) (rest : List Input),
    (s.inputs = .resetInside c :: rest → step s = .refused .resetInsideCommand) ∧
    (s.inputs = .secondHost c :: rest → step s = .refused .secondHost) ∧
    (s.inputs = .backendChange :: rest → step s = .refused .backendChanged)

/-- Commands are performed one at a time in issue order: stepping through the presented commands leads where running them
one after another leads, and leaves the later inputs alone (R39). The model's choices: the list of inputs is assumption
log entry 5, and that an illegal word among the commands is reported and passed over is entry 8. -/
def Obligations.SteppingRunsCommandsInIssueOrder : Prop :=
  ∀ (cs : List Command) (rest : List Input) (s : State),
    ∃ (rs : List Response) (t : State),
      runCommands cs { s with inputs := rest } = .next (rs, t) ∧ rs.length = cs.length ∧ t.inputs = rest ∧
      Sys2Proof.core.run cs.length { s with inputs := cs.map Input.command ++ rest } = .next t

/-! ### Each command: its effect, whole, with everything else unchanged -/

/-- `NEW` (R65), in every state: every register as the rule gives it, the rest unchanged; afterwards the cursor is 0 and
`STATUS` is `OK` with an instance. -/
def Obligations.NewConstructsAnInstance : Prop :=
  ∀ (nonce : Block) (s : State), ∃ t, exec (.new nonce) s = .next t ∧
    t = { s with
      nonce := nonce, ctr := nonce, bpos := 0, ksvalid := false, ivalid := true, err := .ok, result := none
      freeIdx := s.freeIdx + 1 } ∧
    t.cursor = 0 ∧ t.status = 4

/-- `NEW_VAR` (R66): with length 16 it does what `NEW` does; with any other it writes `INIT_ERROR` and nothing else, a
live instance included. -/
def Obligations.NewVarConstructsForSixteenBytesOnly : Prop :=
  (∀ (opnd : Block) (s : State),
    exec (.newVar 16 opnd) s = exec (.new opnd) s ∧
    exec (.newVar 16 opnd) s = .next { s with
      nonce := opnd, ctr := opnd, bpos := 0, ksvalid := false, ivalid := true, err := .ok, result := none
      freeIdx := s.freeIdx + 1 }) ∧
  ∀ (len : Byte) (opnd : Block) (s : State), len ≠ 16 →
    exec (.newVar len opnd) s = .next { s with err := .initError, result := none, freeIdx := s.freeIdx + 1 }

/-- `SEEK` with an instance (R67, R50): the counter is the nonce plus the block index modulo 2^128, `BPOS` the low four
bits, the cache is invalid; nothing else changes. -/
def Obligations.SeekSetsCounterAndPosition : Prop :=
  ∀ (offset : Block) (s : State), s.ivalid = true →
    exec (.seek offset) s = .next { s with
      ctr := BitVec.ofNat 128 (s.nonce.toNat + offset.toNat / 16), bpos := BitVec.ofNat 4 (offset.toNat % 16)
      ksvalid := false, err := .ok, result := none, freeIdx := s.freeIdx + 1 }

/-- `CURRENT_BLOCK` with an instance (R68): it drives the cached block, filled from `E(CTR)` where it was not valid;
nothing else changes. With the cache's invariant the result is `KS(CTR)`. -/
def Obligations.CurrentBlockReturnsTheKeystreamBlock : Prop :=
  ∀ s : State, s.ivalid = true →
    exec .currentBlock s = .next { s with
      ksbuf := if s.ksvalid then s.ksbuf else keystream s.ctr, ksvalid := true, err := .ok
      result := some (if s.ksvalid then s.ksbuf else keystream s.ctr), freeIdx := s.freeIdx + 1 } ∧
    (CacheOk s → ∃ t, exec .currentBlock s = .next t ∧ t.result = some (keystream s.ctr) ∧ t.ksbuf = keystream s.ctr)

/-- `ADVANCE_BLOCK` with an instance (R69): the counter goes up by one modulo 2^128, the cache is invalid, `BPOS` and the
rest stay. -/
def Obligations.AdvanceBlockIncrementsTheCounter : Prop :=
  ∀ s : State, s.ivalid = true →
    exec .advanceBlock s = .next { s with
      ctr := BitVec.ofNat 128 (s.ctr.toNat + 1), ksvalid := false, err := .ok, result := none
      freeIdx := s.freeIdx + 1 }

/-- `APPLY_BYTE` with an instance and the cache's invariant (R75): the result is the data byte XOR byte `BPOS` of
`KS(CTR)`, zero-extended; before byte 15 the cursor moves inside the block and the cache holds it; at byte 15 `BPOS` is 0,
the counter goes up by one modulo 2^128 and the cache is invalid. Nothing else changes. A data byte of 0 returns the
keystream byte, and the keystream byte returns 0. -/
def Obligations.ApplyByteXorsAndMovesTheCursor : Prop :=
  ∀ (din : Byte) (s : State), s.ivalid = true → CacheOk s →
    (s.bpos ≠ 15 → exec (.applyByte din) s = .next { s with
      bpos := s.bpos + 1, ksbuf := keystream s.ctr, ksvalid := true, err := .ok
      result := some ((din ^^^ lane s.bpos (keystream s.ctr)).setWidth 128), freeIdx := s.freeIdx + 1 }) ∧
    (s.bpos = 15 → exec (.applyByte din) s = .next { s with
      bpos := 0, ctr := BitVec.ofNat 128 (s.ctr.toNat + 1), ksbuf := keystream s.ctr, ksvalid := false, err := .ok
      result := some ((din ^^^ lane 15 (keystream s.ctr)).setWidth 128), freeIdx := s.freeIdx + 1 }) ∧
    (∃ t, exec (.applyByte 0) s = .next t ∧ t.result = some ((lane s.bpos (keystream s.ctr)).setWidth 128)) ∧
    (∃ t, exec (.applyByte (lane s.bpos (keystream s.ctr))) s = .next t ∧ t.result = some 0)

/-- The four commands that need an instance raise `NO_INSTANCE` without one, and change nothing else (R90). -/
def Obligations.CommandsWithoutAnInstanceRaiseNoInstance : Prop :=
  ∀ (i : Instr) (s : State), s.ivalid = false →
    (i = .currentBlock ∨ i = .advanceBlock ∨ (∃ offset, i = .seek offset) ∨ ∃ din, i = .applyByte din) →
    exec i s = .next { s with err := .noInstance, result := none, freeIdx := s.freeIdx + 1 }

/-! ### All commands: outcomes, frames, lifetimes -/

/-- Every command completes and reports exactly one outcome, by the priority `ILLEGAL`, `NO_INSTANCE`, `INIT_ERROR`, `OK`
(R92). -/
def Obligations.EveryCommandReportsByPriority : Prop :=
  ∀ (c : Command) (s : State), ∃ t, runCommand c s = .next t ∧ t.err = expectedErr c s

/-- Errors are precise: the state after an erroring command is the state before it, except for `STATUS.ERR` (R93); the
result port is left unspecified. -/
def Obligations.ErroringCommandsChangeNothingElse : Prop :=
  ∀ (c : Command) (s t : State), runCommand c s = .next t → t.err ≠ .ok →
    t = { s with err := t.err, result := none, freeIdx := s.freeIdx + 1 }

/-- Every command that passes its checks completes with `OK` (R88): `NEW` and a 16-byte `NEW_VAR` in every state, and the
four commands that need an instance once there is one. -/
def Obligations.CommandsOnAnInstanceAlwaysCompleteWithOk : Prop :=
  (∀ (nonce : Block) (s : State), ∃ t, exec (.new nonce) s = .next t ∧ t.err = .ok) ∧
  (∀ (opnd : Block) (s : State), ∃ t, exec (.newVar 16 opnd) s = .next t ∧ t.err = .ok) ∧
  ∀ (i : Instr) (s : State), s.ivalid = true → needsInstance i = true → ∃ t, exec i s = .next t ∧ t.err = .ok

/-- The frame of every command that completes with `OK`: what the matrix of R23 marks as not written keeps its value, and
the fixed values it marks are written. -/
def Obligations.CommandsWriteOnlyWhatTheMatrixMarks : Prop :=
  ∀ (i : Instr) (s t : State), exec i s = .next t → t.err = .ok →
    t.inputs = s.inputs ∧ t.ivalid = true ∧
    match i with
    | .new nonce =>
      t.nonce = nonce ∧ t.ctr = nonce ∧ t.bpos = 0 ∧ t.ksbuf = s.ksbuf ∧ t.ksvalid = false ∧ t.result = none
    | .newVar len opnd =>
      len = 16 ∧ t.nonce = opnd ∧ t.ctr = opnd ∧ t.bpos = 0 ∧ t.ksbuf = s.ksbuf ∧ t.ksvalid = false ∧ t.result = none
    | .seek _ => t.nonce = s.nonce ∧ t.ksbuf = s.ksbuf ∧ t.ksvalid = false ∧ s.ivalid = true ∧ t.result = none
    | .currentBlock =>
      t.nonce = s.nonce ∧ t.ctr = s.ctr ∧ t.bpos = s.bpos ∧ t.ksvalid = true ∧ s.ivalid = true ∧
        (s.ksvalid = true → t.ksbuf = s.ksbuf)
    | .advanceBlock =>
      t.nonce = s.nonce ∧ t.bpos = s.bpos ∧ t.ksbuf = s.ksbuf ∧ t.ksvalid = false ∧ s.ivalid = true ∧ t.result = none
    | .applyByte _ =>
      t.nonce = s.nonce ∧ (s.bpos ≠ 15 → t.ctr = s.ctr) ∧ (s.ksvalid = true → t.ksbuf = s.ksbuf) ∧ s.ivalid = true

/-- `STATUS` (R20, R29, R87): `ERR` in bits 1:0 with its four codes, `IV` mirrors `IVALID` in bit 2, bits 31:3 are 0. -/
def Obligations.StatusHoldsTheCodeAndTheInstanceBit : Prop :=
  (∀ s : State, s.status.extractLsb 1 0 = s.err.code ∧ s.status.getLsbD 2 = s.ivalid ∧
    s.status.extractLsb 31 3 = 0) ∧
  ErrCode.ok.code = 0 ∧ ErrCode.initError.code = 1 ∧ ErrCode.noInstance.code = 2 ∧ ErrCode.illegal.code = 3

/-- `RESULT` is defined after an `APPLY_BYTE` or a `CURRENT_BLOCK` that completed with `OK`, and at no other time: after
no other command, and not after a reset (R111). -/
def Obligations.ResultIsDefinedOnlyAfterTheTwoReadingCommands : Prop :=
  (∀ (c : Command) (s t : State), runCommand c s = .next t →
    (t.result.isSome = true ↔
      t.err = .ok ∧ (decode c = .instr .currentBlock ∨ ∃ din, decode c = .instr (.applyByte din)))) ∧
  State.reset.result = none ∧
  ∀ (s t : State) (rest : List Input), s.inputs = .reset :: rest → step s = .next t → t.result = none

/-- Only a successful `NEW` or `NEW_VAR` sets `IVALID`, only reset clears it, and every other command without it raises
`NO_INSTANCE` (R19). -/
def Obligations.OnlyConstructionSetsAndOnlyResetClearsIvalid : Prop :=
  (∀ s t : State, step s = .next t → s.ivalid = false → t.ivalid = true →
    ∃ c rest, s.inputs = .command c :: rest ∧ t.err = .ok ∧
      ((∃ n, decode c = .instr (.new n)) ∨ ∃ n, decode c = .instr (.newVar 16 n))) ∧
  (∀ s t : State, step s = .next t → s.ivalid = true → t.ivalid = false → ∃ rest, s.inputs = .reset :: rest) ∧
  (∀ (s : State) (c : Command) (i : Instr), decode c = .instr i → s.ivalid = false →
    (∀ n, i ≠ .new n) → (∀ l n, i ≠ .newVar l n) → ∃ t, runCommand c s = .next t ∧ t.err = .noInstance)

/-- Lifetime of the state (R26): a command changes `NONCE` only when it is a `NEW` or `NEW_VAR` that succeeds, and `CTR`
or `BPOS` only when it is one of those, a `SEEK`, an `ADVANCE_BLOCK` or an `APPLY_BYTE`; a construction replaces a live
instance completely. -/
def Obligations.NonceAndCursorChangeOnlyAtTheirCommands : Prop :=
  (∀ (c : Command) (s t : State), runCommand c s = .next t → t.nonce ≠ s.nonce →
    t.err = .ok ∧ ((∃ n, decode c = .instr (.new n)) ∨ ∃ l n, decode c = .instr (.newVar l n))) ∧
  (∀ (c : Command) (s t : State), runCommand c s = .next t → (t.ctr ≠ s.ctr ∨ t.bpos ≠ s.bpos) →
    t.err = .ok ∧ ((∃ n, decode c = .instr (.new n)) ∨ (∃ l n, decode c = .instr (.newVar l n)) ∨
      (∃ o, decode c = .instr (.seek o)) ∨ decode c = .instr .advanceBlock ∨
      ∃ d, decode c = .instr (.applyByte d))) ∧
  ∀ (n : Block) (s₁ s₂ : State), ∃ t₁ t₂, exec (.new n) s₁ = .next t₁ ∧ exec (.new n) s₂ = .next t₂ ∧
    exec (.newVar 16 n) s₁ = .next t₁ ∧ t₁.nonce = t₂.nonce ∧ t₁.ctr = t₂.ctr ∧ t₁.bpos = t₂.bpos ∧
    t₁.ksvalid = t₂.ksvalid ∧ t₁.status = t₂.status

/-- `STATUS` after a command depends on the command and on whether an instance exists, on nothing else; every `OK` command
on an instance reads 4, and so does the `ADVANCE_BLOCK` that wraps the counter: the wrap leaves no trace (R24). -/
def Obligations.CounterWrapLeavesNoTraceInStatus : Prop :=
  (∀ (c : Command) (s₁ s₂ t₁ t₂ : State), s₁.ivalid = s₂.ivalid →
    runCommand c s₁ = .next t₁ → runCommand c s₂ = .next t₂ → t₁.status = t₂.status) ∧
  (∀ (c : Command) (s t : State), s.ivalid = true → runCommand c s = .next t → t.err = .ok → t.status = 4) ∧
  ∀ s : State, s.ivalid = true → s.ctr = BitVec.allOnes 128 →
    ∃ t, exec .advanceBlock s = .next t ∧ t.ctr = 0 ∧ t.status = 4

/-- Idempotency (R38): `SEEK`, `CURRENT_BLOCK` and `NEW` twice leave the architectural state of once, and
`CURRENT_BLOCK` the same result; `APPLY_BYTE` and `ADVANCE_BLOCK` each move the cursor. -/
def Obligations.SeekCurrentBlockAndNewAreIdempotent : Prop :=
  (∀ (i : Instr) (s t u : State),
    ((∃ o, i = .seek o) ∨ i = .currentBlock ∨ ∃ n, i = .new n) → exec i s = .next t → exec i t = .next u →
    u = { t with freeIdx := u.freeIdx }) ∧
  (∀ (i : Instr) (s : State), s.ivalid = true → (i = .advanceBlock ∨ ∃ d, i = .applyByte d) →
    ∃ t, exec i s = .next t ∧ t.cursor ≠ s.cursor)

/-! ### Arithmetic and byte order -/

/-- Byte order (R8): byte `j` is bits 127-8j to 120-8j; the two functions are inverses; the value is the sum of
`b_j * 256^(15-j)`. -/
def Obligations.BytesAreBigEndian : Prop :=
  (∀ (v : Block) (j : Fin 16),
    (be16 v)[j] = lane (BitVec.ofFin j) v ∧ (lane (BitVec.ofFin j) v).toNat = v.toNat / 2 ^ (120 - 8 * j.val) % 256) ∧
  (∀ v : Block, fromBe16 (be16 v) = v) ∧
  (∀ b : Bytes16, be16 (fromBe16 b) = b) ∧
  ∀ b : Bytes16, (fromBe16 b).toNat = ∑ j : Fin 16, b[j].toNat * 256 ^ (15 - j.val)

/-- The keystream block (R62): the backend gets the big-endian bytes of the counter, and its 16 output bytes are the bytes
of the block in order. -/
def Obligations.KeystreamBytesAreTheBackendsBytes : Prop :=
  ∀ c : Block, be16 (keystream c) = Config.encryptBlock (be16 c)

/-- The increment (R60): `2^128 - 1` goes to 0, any other value up by one, and the byte-array form with its carry from
byte 15 gives the same bytes in every case. -/
def Obligations.IncrementIsTheByteArrayIncrement : Prop :=
  inc (BitVec.allOnes 128) = 0 ∧
  (∀ c : Block, c ≠ BitVec.allOnes 128 → (inc c).toNat = c.toNat + 1) ∧
  ∀ c : Block, (be16 (inc c)).toList = incBytes (be16 c)

/-- There is no 64-bit wrap (R63): the low half goes up modulo 2^64 and its carry goes into the high half. -/
def Obligations.CarryGoesIntoTheHighHalf : Prop :=
  ∀ c : Block,
    (inc c).extractLsb' 0 64 = c.extractLsb' 0 64 + 1 ∧
    (inc c).extractLsb' 64 64 =
      c.extractLsb' 64 64 + (if c.extractLsb' 0 64 = BitVec.allOnes 64 then 1 else 0)

/-- The cursor (R16): in every state `CTR` is the nonce plus the cursor divided by 16, and `BPOS` the cursor modulo 16. -/
def Obligations.CounterAndPositionAreTheCursorSplit : Prop :=
  ∀ s : State,
    s.ctr = BitVec.ofNat 128 (s.nonce.toNat + s.cursor.toNat / 16) ∧ s.bpos.toNat = s.cursor.toNat % 16

/-- The cursor moves by 16 at `ADVANCE_BLOCK` and by 1 at `APPLY_BYTE`, modulo 2^132 (R69, R17); advancing it from
`2^132 - 1` gives 0, the counter is then the nonce again, and that is no error. -/
def Obligations.AdvancingMovesTheCursorModulo2Pow132 : Prop :=
  ∀ s : State, s.ivalid = true →
    (∃ t, exec .advanceBlock s = .next t ∧ t.cursor = s.cursor + 16 ∧ t.nonce = s.nonce ∧ t.err = .ok) ∧
    (∀ din, ∃ t, exec (.applyByte din) s = .next t ∧ t.cursor = s.cursor + 1 ∧ t.nonce = s.nonce ∧ t.err = .ok) ∧
    (s.cursor = BitVec.allOnes 132 → ∀ din, ∃ t, exec (.applyByte din) s = .next t ∧
      t.cursor = 0 ∧ t.ctr = t.nonce ∧ t.nonce = s.nonce ∧ t.err = .ok)

/-- Reach of seek and advance (R73): `SEEK` sets the cursor to its operand, so it reaches exactly the values below 2^128;
`SEEK n; ADVANCE_BLOCK` leaves the counter, position and cursor of `SEEK (n + 16)`; at a cursor of 2^128 or more the block
index is 2^124 or more, and the counter is still the nonce plus the block index. -/
def Obligations.SeekReachesTheOffsetsBelow2Pow128 : Prop :=
  (∀ (n : Block) (s : State), s.ivalid = true →
    ∃ t, exec (.seek n) s = .next t ∧ t.cursor = n.setWidth 132 ∧ t.cursor.toNat < 2 ^ 128) ∧
  (∀ (n : Block) (s : State), s.ivalid = true → n.toNat + 16 < 2 ^ 128 →
    ∃ t u v, exec (.seek n) s = .next t ∧ exec .advanceBlock t = .next u ∧ exec (.seek (n + 16)) s = .next v ∧
      u.ctr = v.ctr ∧ u.bpos = v.bpos ∧ u.cursor = v.cursor) ∧
  (∀ s : State, 2 ^ 128 ≤ s.cursor.toNat → 2 ^ 124 ≤ s.blkIdx.toNat ∧ s.ctr = s.nonce + s.blkIdx)

/-- The counter goes on from `2^128 - 1` at 0 (R74): after `NEW N` and any number `k` of `ADVANCE_BLOCK`, `CURRENT_BLOCK`
returns `E(N + k mod 2^128)`; with `N = 2^128 - 2` the first four are `E(2^128-2)`, `E(2^128-1)`, `E(0)`, `E(1)`. -/
def Obligations.AdvancedBlocksAreConsecutiveModulo2Pow128 : Prop :=
  (∀ (N : Block) (k : Nat) (s : State), ∃ rs t,
    runCommands (encode (.new N) :: (List.replicate k (encode .advanceBlock) ++ [encode .currentBlock])) s
      = .next (rs, t) ∧ t.result = some (keystream (N + BitVec.ofNat 128 k)) ∧ t.err = .ok) ∧
  ∀ (k : Nat) (s : State), k < 4 → ∃ rs t,
    runCommands (encode (.new (BitVec.ofNat 128 (2 ^ 128 - 2))) ::
      (List.replicate k (encode .advanceBlock) ++ [encode .currentBlock])) s = .next (rs, t) ∧
    t.result = some (keystream ([BitVec.ofNat 128 (2 ^ 128 - 2), BitVec.ofNat 128 (2 ^ 128 - 1), 0, 1].getD k 0))

/-! ### Invariants and what the host cannot see -/

/-- The invariant holds at reset. -/
def Obligations.InvariantHoldsAtReset : Prop := Inv State.reset

/-- Every step keeps the invariant: the cache holds `KS(CTR)` (R18), only an instance has a cache, `NO_INSTANCE` is
reported only without one (R90), a defined result comes from an `OK` command on an instance (R21). -/
def Obligations.EveryStepKeepsTheInvariant : Prop :=
  ∀ s t : State, Inv s → step s = .next t → Inv t

/-- The cache cannot be seen (R18): from two states that meet the invariant and differ in the cache only, one step ends
alike, in two such states again or in the same refusal. -/
def Obligations.CacheContentsAreUnobservable : Prop :=
  ∀ s t : State, Inv s → Inv t → SameButCache s t →
    (∃ s' t', step s = .next s' ∧ step t = .next t' ∧ Inv s' ∧ Inv t' ∧ SameButCache s' t' ∧
      s'.response = t'.response) ∨
    ∃ r, step s = .refused r ∧ step t = .refused r

/-- What reset leaves unspecified cannot be seen (R27): from two states without an instance, whatever `NONCE`, `CTR`,
`BPOS` and `KSBUF` hold, every sequence of commands gets the same responses. That an illegal word among
them gets a response is the model's choice: assumption log entry 8. -/
def Obligations.UnspecifiedResetValuesAreUnobservable : Prop :=
  ∀ (cs : List Command) (s t : State),
    s.ivalid = false → s.ksvalid = false → t.ivalid = false → t.ksvalid = false →
    ∃ rs s' t', runCommands cs s = .next (rs, s') ∧ runCommands cs t = .next (rs, t')

/-- States that look the same to the host keep looking the same, over any number of steps, resets included. -/
def Obligations.StatesThatLookTheSameStaySo : Prop :=
  ∀ (n : Nat) (s t : State), Inv s → Inv t → LooksSame s t →
    (∃ s' t', Sys2Proof.core.run n s = .next s' ∧ Sys2Proof.core.run n t = .next t' ∧ LooksSame s' t' ∧
      s'.response = t'.response) ∨
    ∃ r, Sys2Proof.core.run n s = .refused r ∧ Sys2Proof.core.run n t = .refused r

/-- Purity (R70): in every state reached from reset with an instance, `CURRENT_BLOCK` returns
`E(NONCE + floor(CURSOR / 16))`, and a repeat returns it again. -/
def Obligations.CurrentBlockIsPureInNonceAndCursor : Prop :=
  ∀ s : State, Reached s → s.ivalid = true →
    ∃ t u, exec .currentBlock s = .next t ∧ exec .currentBlock t = .next u ∧
      t.result = some (keystream (BitVec.ofNat 128 (s.nonce.toNat + s.cursor.toNat / 16))) ∧ u.result = t.result

/-- The keystream byte at the cursor (R77): `KSB(N, c)` is byte `c mod 16` of `E(N + floor(c/16))`, and in every state
reached from reset with an instance `APPLY_BYTE` returns the data byte XOR `KSB(NONCE, CURSOR)`. -/
def Obligations.ApplyByteUsesTheKeystreamByteAtTheCursor : Prop :=
  (∀ (N : Block) (c : Cursor), keystreamByte N c =
    lane (BitVec.ofNat 4 (c.toNat % 16)) (keystream (BitVec.ofNat 128 (N.toNat + c.toNat / 16)))) ∧
  ∀ (s : State) (din : Byte), Reached s → s.ivalid = true →
    ∃ t, exec (.applyByte din) s = .next t ∧
      t.result = some ((din ^^^ keystreamByte s.nonce s.cursor).setWidth 128)

/-- Seek determines the state (R72): after `SEEK n` the architectural state is a function of the nonce and `n` alone, and
a second `SEEK n` leaves it. -/
def Obligations.SeekDeterminesTheState : Prop :=
  ∀ (n : Block) (s₁ s₂ : State), s₁.ivalid = true → s₂.ivalid = true → s₁.nonce = s₂.nonce →
    ∃ t₁ t₂ u, exec (.seek n) s₁ = .next t₁ ∧ exec (.seek n) s₂ = .next t₂ ∧ exec (.seek n) t₁ = .next u ∧
      (t₁.nonce = t₂.nonce ∧ t₁.ctr = t₂.ctr ∧ t₁.bpos = t₂.bpos ∧ t₁.ivalid = t₂.ivalid ∧ t₁.status = t₂.status) ∧
      (u.nonce = t₁.nonce ∧ u.ctr = t₁.ctr ∧ u.bpos = t₁.bpos ∧ u.ivalid = t₁.ivalid ∧ u.status = t₁.status)

/-- Determinism across instances (R71): two instances with the same nonce and cursor, however they came there, give the
same responses to every sequence of commands from then on. That an illegal word among them gets a response is the model's
choice: assumption log entry 8. -/
def Obligations.InstancesAtTheSameCursorAnswerAlike : Prop :=
  ∀ (s t : State), CacheOk s → CacheOk t → s.ivalid = true → t.ivalid = true →
    s.nonce = t.nonce → s.cursor = t.cursor →
    ∀ cs : List Command, ∃ rs s' t', runCommands cs s = .next (rs, s') ∧ runCommands cs t = .next (rs, t')

/-! ### The keystream applier over a buffer -/

/-- Block crossing and the crossing at the counter wrap (R81, R82): the byte at `BPOS = 15` comes from the block before
the increment; after it `BPOS` is 0 and the next byte is byte 0 of the next block, which after the counter `2^128 - 1` is
block 0, with `STATUS` as for any `OK` command. `BPOS` is 0 to 15 in every state. -/
def Obligations.BlockCrossingUsesTheOldBlockThenTheNext : Prop :=
  (∀ s : State, s.bpos.toNat ≤ 15) ∧
  ∀ (s : State) (d₁ d₂ : Byte), s.ivalid = true → CacheOk s → s.bpos = 15 →
    ∃ t u, exec (.applyByte d₁) s = .next t ∧ exec (.applyByte d₂) t = .next u ∧
      t.result = some ((d₁ ^^^ lane 15 (keystream s.ctr)).setWidth 128) ∧
      t.bpos = 0 ∧ t.ctr = inc s.ctr ∧ t.status = 4 ∧
      u.result = some ((d₂ ^^^ lane 0 (keystream (inc s.ctr))).setWidth 128) ∧
      (s.ctr = BitVec.allOnes 128 →
        t.ctr = 0 ∧ t.result = some ((d₁ ^^^ lane 15 (keystream (BitVec.allOnes 128))).setWidth 128) ∧
        u.result = some ((d₂ ^^^ lane 0 (keystream 0)).setWidth 128))

/-- The keystream is independent of the data (R84): after two different data bytes the states differ in `RESULT` only. -/
def Obligations.OnlyTheResultDependsOnTheData : Prop :=
  ∀ (s t₁ t₂ : State) (d₁ d₂ : Byte), exec (.applyByte d₁) s = .next t₁ → exec (.applyByte d₂) s = .next t₂ →
    t₁ = { t₂ with result := t₁.result }

/-- An empty buffer issues no command and changes no state (R83). -/
def Obligations.EmptyBufferChangesNothing : Prop :=
  applyExpansion [] = [] ∧ ∀ s : State, applyBuffer [] s = .next ([], s)

/-- `apply_keystream` (R76): from an instance at cursor `c`, output `i` is byte `i` of the buffer XOR the keystream byte at
`c + i` modulo 2^132, for every length; afterwards the cursor is `c` plus the length modulo 2^132, the nonce is kept and
the instance lives. -/
def Obligations.BufferIsXoredWithTheKeystreamFromTheCursor : Prop :=
  ∀ (bytes : List Byte) (s : State), s.ivalid = true → CacheOk s →
    ∃ t, applyBuffer bytes s = .next
        (bytes.mapIdx fun i b => some (b ^^^ keystreamByte s.nonce (s.cursor + BitVec.ofNat 132 i)), t) ∧
      t.cursor = s.cursor + BitVec.ofNat 132 bytes.length ∧ t.nonce = s.nonce ∧ t.ivalid = true ∧ CacheOk t

/-- Seamless continuation (R78) and boundary straddling (R79): a buffer in one call and in two calls gives the same
outputs and the same final state, from every state; 17 bytes as 16 and 1 is a case. -/
def Obligations.SplittingABufferChangesNothing : Prop :=
  ∀ (p q : List Byte) (s : State), ∃ o₁ t o₂ u,
    applyBuffer p s = .next (o₁, t) ∧ applyBuffer q t = .next (o₂, u) ∧ applyBuffer (p ++ q) s = .next (o₁ ++ o₂, u) ∧
    (p.length = 16 → q.length = 1 → o₁.length = 16 ∧ o₂.length = 1)

/-- Involution (R80): `SEEK o; apply P` gives some bytes `C`, and `SEEK o; apply C` then gives `P` back, for every nonce,
offset and buffer. -/
def Obligations.ApplyingTwiceFromTheSameOffsetGivesTheBufferBack : Prop :=
  ∀ (o : Block) (P : List Byte) (s : State), s.ivalid = true →
    ∃ (C : List Byte) (s₁ s₂ s₃ s₄ : State),
      exec (.seek o) s = .next s₁ ∧ applyBuffer P s₁ = .next (C.map some, s₂) ∧
      exec (.seek o) s₂ = .next s₃ ∧ applyBuffer C s₃ = .next (P.map some, s₄)

/-- `rewind` after any buffer restores the original alignment (R56, R67): the counter is the nonce and the position 0. -/
def Obligations.RewindRestoresTheOriginalAlignment : Prop :=
  ∀ (bytes : List Byte) (s : State), s.ivalid = true →
    ∃ outs t rs u, applyBuffer bytes s = .next (outs, t) ∧ runCommands rewindExpansion t = .next (rs, u) ∧
      u.ctr = s.nonce ∧ u.bpos = 0 ∧ u.nonce = s.nonce ∧ u.status = 4

/-- Disjoint regions on separate instances (R97): an instance of the same nonce, sought to where another instance would
be after `p`, gives the bytes that the other gives for `q` after `p`. -/
def Obligations.SeparateInstancesCoverDisjointRegions : Prop :=
  ∀ (p q : List Byte) (o : Block) (s t : State), s.ivalid = true → t.ivalid = true → CacheOk s → s.nonce = t.nonce →
    o.setWidth 132 = s.cursor + BitVec.ofNat 132 p.length →
    ∃ o₁ o₂ u t' v, applyBuffer (p ++ q) s = .next (o₁ ++ o₂, u) ∧ o₁.length = p.length ∧
      exec (.seek o) t = .next t' ∧ applyBuffer q t' = .next (o₂, v)
end

