-- ==== Sys2Proof/Laws/State.lean ====
section
/-! SUPPORT. What each shared operation does to each field of State, one lemma a field, so that no proof unfolds a record
update. -/

namespace Sys2Proof.Machine

/-! ### `complete`: the end of a command that completes (R64, R88) -/

@[simp] theorem complete_nonce (r : Option Block) (s : State) : (complete r s).nonce = s.nonce := rfl
@[simp] theorem complete_ctr (r : Option Block) (s : State) : (complete r s).ctr = s.ctr := rfl
@[simp] theorem complete_bpos (r : Option Block) (s : State) : (complete r s).bpos = s.bpos := rfl
@[simp] theorem complete_ksbuf (r : Option Block) (s : State) : (complete r s).ksbuf = s.ksbuf := rfl
@[simp] theorem complete_ksvalid (r : Option Block) (s : State) : (complete r s).ksvalid = s.ksvalid := rfl
@[simp] theorem complete_ivalid (r : Option Block) (s : State) : (complete r s).ivalid = s.ivalid := rfl
@[simp] theorem complete_err (r : Option Block) (s : State) : (complete r s).err = .ok := rfl
@[simp] theorem complete_result (r : Option Block) (s : State) : (complete r s).result = r := rfl
@[simp] theorem complete_inputs (r : Option Block) (s : State) : (complete r s).inputs = s.inputs := rfl
@[simp] theorem complete_freeIdx (r : Option Block) (s : State) : (complete r s).freeIdx = s.freeIdx + 1 := rfl

/-! ### `raiseErr`: an error changes the code only (R87) -/

@[simp] theorem raiseErr_nonce (code : ErrCode) (s : State) : (raiseErr code s).nonce = s.nonce := rfl
@[simp] theorem raiseErr_ctr (code : ErrCode) (s : State) : (raiseErr code s).ctr = s.ctr := rfl
@[simp] theorem raiseErr_bpos (code : ErrCode) (s : State) : (raiseErr code s).bpos = s.bpos := rfl
@[simp] theorem raiseErr_ksbuf (code : ErrCode) (s : State) : (raiseErr code s).ksbuf = s.ksbuf := rfl
@[simp] theorem raiseErr_ksvalid (code : ErrCode) (s : State) : (raiseErr code s).ksvalid = s.ksvalid := rfl
@[simp] theorem raiseErr_ivalid (code : ErrCode) (s : State) : (raiseErr code s).ivalid = s.ivalid := rfl
@[simp] theorem raiseErr_err (code : ErrCode) (s : State) : (raiseErr code s).err = code := rfl
@[simp] theorem raiseErr_result (code : ErrCode) (s : State) : (raiseErr code s).result = none := rfl
@[simp] theorem raiseErr_inputs (code : ErrCode) (s : State) : (raiseErr code s).inputs = s.inputs := rfl
@[simp] theorem raiseErr_freeIdx (code : ErrCode) (s : State) : (raiseErr code s).freeIdx = s.freeIdx + 1 := rfl

/-! ### `construct`: construction (R65) -/

@[simp] theorem construct_nonce (nonce : Block) (s : State) : (construct nonce s).nonce = nonce := rfl
@[simp] theorem construct_ctr (nonce : Block) (s : State) : (construct nonce s).ctr = nonce := rfl
@[simp] theorem construct_bpos (nonce : Block) (s : State) : (construct nonce s).bpos = 0 := rfl
@[simp] theorem construct_ksbuf (nonce : Block) (s : State) : (construct nonce s).ksbuf = s.ksbuf := rfl
@[simp] theorem construct_ksvalid (nonce : Block) (s : State) : (construct nonce s).ksvalid = false := rfl
@[simp] theorem construct_ivalid (nonce : Block) (s : State) : (construct nonce s).ivalid = true := rfl
@[simp] theorem construct_err (nonce : Block) (s : State) : (construct nonce s).err = .ok := rfl
@[simp] theorem construct_result (nonce : Block) (s : State) : (construct nonce s).result = none := rfl
@[simp] theorem construct_inputs (nonce : Block) (s : State) : (construct nonce s).inputs = s.inputs := rfl
@[simp] theorem construct_freeIdx (nonce : Block) (s : State) : (construct nonce s).freeIdx = s.freeIdx + 1 := rfl

/-! ### `nextBlock`: the next block (R60, R69) -/

@[simp] theorem nextBlock_nonce (s : State) : (nextBlock s).nonce = s.nonce := rfl
@[simp] theorem nextBlock_ctr (s : State) : (nextBlock s).ctr = inc s.ctr := rfl
@[simp] theorem nextBlock_bpos (s : State) : (nextBlock s).bpos = s.bpos := rfl
@[simp] theorem nextBlock_ksbuf (s : State) : (nextBlock s).ksbuf = s.ksbuf := rfl
@[simp] theorem nextBlock_ksvalid (s : State) : (nextBlock s).ksvalid = false := rfl
@[simp] theorem nextBlock_ivalid (s : State) : (nextBlock s).ivalid = s.ivalid := rfl
@[simp] theorem nextBlock_err (s : State) : (nextBlock s).err = s.err := rfl
@[simp] theorem nextBlock_result (s : State) : (nextBlock s).result = s.result := rfl
@[simp] theorem nextBlock_inputs (s : State) : (nextBlock s).inputs = s.inputs := rfl
@[simp] theorem nextBlock_freeIdx (s : State) : (nextBlock s).freeIdx = s.freeIdx := rfl

/-! ### `seekTo`: the effect of `SEEK` (R67) -/

@[simp] theorem seekTo_nonce (offset : Block) (s : State) : (seekTo offset s).nonce = s.nonce := rfl
@[simp] theorem seekTo_ctr (offset : Block) (s : State) : (seekTo offset s).ctr = blockCounter s.nonce (seekBlk offset) := rfl
@[simp] theorem seekTo_bpos (offset : Block) (s : State) : (seekTo offset s).bpos = seekPos offset := rfl
@[simp] theorem seekTo_ksbuf (offset : Block) (s : State) : (seekTo offset s).ksbuf = s.ksbuf := rfl
@[simp] theorem seekTo_ksvalid (offset : Block) (s : State) : (seekTo offset s).ksvalid = false := rfl
@[simp] theorem seekTo_ivalid (offset : Block) (s : State) : (seekTo offset s).ivalid = s.ivalid := rfl
@[simp] theorem seekTo_err (offset : Block) (s : State) : (seekTo offset s).err = .ok := rfl
@[simp] theorem seekTo_result (offset : Block) (s : State) : (seekTo offset s).result = none := rfl
@[simp] theorem seekTo_inputs (offset : Block) (s : State) : (seekTo offset s).inputs = s.inputs := rfl
@[simp] theorem seekTo_freeIdx (offset : Block) (s : State) : (seekTo offset s).freeIdx = s.freeIdx + 1 := rfl

/-! ### `takeReset`: reset between commands (R102) -/

@[simp] theorem takeReset_nonce (s : State) : (takeReset s).nonce = Config.freeNonce s.freeIdx := rfl
@[simp] theorem takeReset_ctr (s : State) : (takeReset s).ctr = Config.freeCtr s.freeIdx := rfl
@[simp] theorem takeReset_bpos (s : State) : (takeReset s).bpos = Config.freeBpos s.freeIdx := rfl
@[simp] theorem takeReset_ksbuf (s : State) : (takeReset s).ksbuf = Config.freeKsbuf s.freeIdx := rfl
@[simp] theorem takeReset_ksvalid (s : State) : (takeReset s).ksvalid = false := rfl
@[simp] theorem takeReset_ivalid (s : State) : (takeReset s).ivalid = false := rfl
@[simp] theorem takeReset_err (s : State) : (takeReset s).err = .ok := rfl
@[simp] theorem takeReset_result (s : State) : (takeReset s).result = none := rfl
@[simp] theorem takeReset_inputs (s : State) : (takeReset s).inputs = s.inputs := rfl
@[simp] theorem takeReset_freeIdx (s : State) : (takeReset s).freeIdx = s.freeIdx + 1 := rfl

/-! ### `presentInput`: an input of the host put first -/

@[simp] theorem presentInput_nonce (x : Input) (s : State) : (presentInput x s).nonce = s.nonce := rfl
@[simp] theorem presentInput_ctr (x : Input) (s : State) : (presentInput x s).ctr = s.ctr := rfl
@[simp] theorem presentInput_bpos (x : Input) (s : State) : (presentInput x s).bpos = s.bpos := rfl
@[simp] theorem presentInput_ksbuf (x : Input) (s : State) : (presentInput x s).ksbuf = s.ksbuf := rfl
@[simp] theorem presentInput_ksvalid (x : Input) (s : State) : (presentInput x s).ksvalid = s.ksvalid := rfl
@[simp] theorem presentInput_ivalid (x : Input) (s : State) : (presentInput x s).ivalid = s.ivalid := rfl
@[simp] theorem presentInput_err (x : Input) (s : State) : (presentInput x s).err = s.err := rfl
@[simp] theorem presentInput_result (x : Input) (s : State) : (presentInput x s).result = s.result := rfl
@[simp] theorem presentInput_inputs (x : Input) (s : State) : (presentInput x s).inputs = x :: s.inputs := rfl
@[simp] theorem presentInput_freeIdx (x : Input) (s : State) : (presentInput x s).freeIdx = s.freeIdx := rfl

/-! ### `fillCache`: only the cache changes (R18) -/

@[simp] theorem fillCache_nonce (B : Backend) (s : State) : (fillCache B s).nonce = s.nonce := by
  unfold fillCache; split <;> rfl
@[simp] theorem fillCache_ctr (B : Backend) (s : State) : (fillCache B s).ctr = s.ctr := by
  unfold fillCache; split <;> rfl
@[simp] theorem fillCache_bpos (B : Backend) (s : State) : (fillCache B s).bpos = s.bpos := by
  unfold fillCache; split <;> rfl
@[simp] theorem fillCache_ksbuf (B : Backend) (s : State) :
    (fillCache B s).ksbuf = if s.ksvalid then s.ksbuf else encryptWord B s.ctr := by unfold fillCache; split <;> rfl
@[simp] theorem fillCache_ksvalid (B : Backend) (s : State) : (fillCache B s).ksvalid = true := by
  unfold fillCache; split <;> simp_all
@[simp] theorem fillCache_ivalid (B : Backend) (s : State) : (fillCache B s).ivalid = s.ivalid := by
  unfold fillCache; split <;> rfl
@[simp] theorem fillCache_err (B : Backend) (s : State) : (fillCache B s).err = s.err := by
  unfold fillCache; split <;> rfl
@[simp] theorem fillCache_result (B : Backend) (s : State) : (fillCache B s).result = s.result := by
  unfold fillCache; split <;> rfl
@[simp] theorem fillCache_inputs (B : Backend) (s : State) : (fillCache B s).inputs = s.inputs := by
  unfold fillCache; split <;> rfl
@[simp] theorem fillCache_freeIdx (B : Backend) (s : State) : (fillCache B s).freeIdx = s.freeIdx := by
  unfold fillCache; split <;> rfl

/-! ### `advanceByte`: one byte on, across the block boundary after byte 15 (R75, R81) -/

@[simp] theorem advanceByte_nonce (s : State) : (advanceByte s).nonce = s.nonce := by
  unfold advanceByte; split <;> rfl
@[simp] theorem advanceByte_ctr (s : State) :
    (advanceByte s).ctr = if s.bpos = 15 then inc s.ctr else s.ctr := by unfold advanceByte; split <;> rfl
/-- `APPLY_BYTE` increments `BPOS` modulo 16 (R15). -/
@[simp] theorem advanceByte_bpos (s : State) : (advanceByte s).bpos = s.bpos + 1 := by
  unfold advanceByte; split <;> simp_all
@[simp] theorem advanceByte_ksbuf (s : State) : (advanceByte s).ksbuf = s.ksbuf := by
  unfold advanceByte; split <;> rfl
@[simp] theorem advanceByte_ksvalid (s : State) :
    (advanceByte s).ksvalid = if s.bpos = 15 then false else s.ksvalid := by unfold advanceByte; split <;> rfl
@[simp] theorem advanceByte_ivalid (s : State) : (advanceByte s).ivalid = s.ivalid := by
  unfold advanceByte; split <;> rfl
@[simp] theorem advanceByte_err (s : State) : (advanceByte s).err = s.err := by
  unfold advanceByte; split <;> rfl
@[simp] theorem advanceByte_result (s : State) : (advanceByte s).result = s.result := by
  unfold advanceByte; split <;> rfl
@[simp] theorem advanceByte_inputs (s : State) : (advanceByte s).inputs = s.inputs := by
  unfold advanceByte; split <;> rfl
@[simp] theorem advanceByte_freeIdx (s : State) : (advanceByte s).freeIdx = s.freeIdx := by
  unfold advanceByte; split <;> rfl

/-! ### The effects of `ADVANCE_BLOCK`, `CURRENT_BLOCK` and `APPLY_BYTE` on an instance (R68, R69, R75) -/

@[simp] theorem advanceOneBlock_nonce (s : State) : (advanceOneBlock s).nonce = s.nonce := rfl
@[simp] theorem advanceOneBlock_ctr (s : State) : (advanceOneBlock s).ctr = inc s.ctr := rfl
@[simp] theorem advanceOneBlock_bpos (s : State) : (advanceOneBlock s).bpos = s.bpos := rfl
@[simp] theorem advanceOneBlock_ksbuf (s : State) : (advanceOneBlock s).ksbuf = s.ksbuf := rfl
@[simp] theorem advanceOneBlock_ksvalid (s : State) : (advanceOneBlock s).ksvalid = false := rfl
@[simp] theorem advanceOneBlock_ivalid (s : State) : (advanceOneBlock s).ivalid = s.ivalid := rfl
@[simp] theorem advanceOneBlock_err (s : State) : (advanceOneBlock s).err = .ok := rfl
@[simp] theorem advanceOneBlock_result (s : State) : (advanceOneBlock s).result = none := rfl
@[simp] theorem advanceOneBlock_inputs (s : State) : (advanceOneBlock s).inputs = s.inputs := rfl
@[simp] theorem advanceOneBlock_freeIdx (s : State) : (advanceOneBlock s).freeIdx = s.freeIdx + 1 := rfl

@[simp] theorem currentBlockWith_nonce (B : Backend) (s : State) :
    (currentBlockWith B s).nonce = s.nonce := by simp [currentBlockWith]
@[simp] theorem currentBlockWith_ctr (B : Backend) (s : State) :
    (currentBlockWith B s).ctr = s.ctr := by simp [currentBlockWith]
@[simp] theorem currentBlockWith_bpos (B : Backend) (s : State) :
    (currentBlockWith B s).bpos = s.bpos := by simp [currentBlockWith]
@[simp] theorem currentBlockWith_ksbuf (B : Backend) (s : State) :
    (currentBlockWith B s).ksbuf = if s.ksvalid then s.ksbuf else encryptWord B s.ctr := by simp [currentBlockWith]
@[simp] theorem currentBlockWith_ksvalid (B : Backend) (s : State) :
    (currentBlockWith B s).ksvalid = true := by simp [currentBlockWith]
@[simp] theorem currentBlockWith_ivalid (B : Backend) (s : State) :
    (currentBlockWith B s).ivalid = s.ivalid := by simp [currentBlockWith]
@[simp] theorem currentBlockWith_err (B : Backend) (s : State) :
    (currentBlockWith B s).err = .ok := by simp [currentBlockWith]
@[simp] theorem currentBlockWith_result (B : Backend) (s : State) :
    (currentBlockWith B s).result = some (if s.ksvalid then s.ksbuf else encryptWord B s.ctr) := by simp [currentBlockWith]
@[simp] theorem currentBlockWith_inputs (B : Backend) (s : State) :
    (currentBlockWith B s).inputs = s.inputs := by simp [currentBlockWith]
@[simp] theorem currentBlockWith_freeIdx (B : Backend) (s : State) :
    (currentBlockWith B s).freeIdx = s.freeIdx + 1 := by simp [currentBlockWith]

@[simp] theorem applyByteWith_nonce (B : Backend) (din : Byte) (s : State) :
    (applyByteWith B din s).nonce = s.nonce := by simp [applyByteWith]
@[simp] theorem applyByteWith_ctr (B : Backend) (din : Byte) (s : State) :
    (applyByteWith B din s).ctr = if s.bpos = 15 then inc s.ctr else s.ctr := by simp [applyByteWith]
@[simp] theorem applyByteWith_bpos (B : Backend) (din : Byte) (s : State) :
    (applyByteWith B din s).bpos = s.bpos + 1 := by simp [applyByteWith]
@[simp] theorem applyByteWith_ksbuf (B : Backend) (din : Byte) (s : State) :
    (applyByteWith B din s).ksbuf = if s.ksvalid then s.ksbuf else encryptWord B s.ctr := by simp [applyByteWith]
@[simp] theorem applyByteWith_ksvalid (B : Backend) (din : Byte) (s : State) :
    (applyByteWith B din s).ksvalid = !decide (s.bpos = 15) := by simp [applyByteWith]
@[simp] theorem applyByteWith_ivalid (B : Backend) (din : Byte) (s : State) :
    (applyByteWith B din s).ivalid = s.ivalid := by simp [applyByteWith]
@[simp] theorem applyByteWith_err (B : Backend) (din : Byte) (s : State) :
    (applyByteWith B din s).err = .ok := by simp [applyByteWith]
@[simp] theorem applyByteWith_result (B : Backend) (din : Byte) (s : State) :
    (applyByteWith B din s).result = some ((din ^^^ lane s.bpos (if s.ksvalid then s.ksbuf else encryptWord B s.ctr)).setWidth 128) := by simp [applyByteWith]
@[simp] theorem applyByteWith_inputs (B : Backend) (din : Byte) (s : State) :
    (applyByteWith B din s).inputs = s.inputs := by simp [applyByteWith]
@[simp] theorem applyByteWith_freeIdx (B : Backend) (din : Byte) (s : State) :
    (applyByteWith B din s).freeIdx = s.freeIdx + 1 := by simp [applyByteWith]

end Sys2Proof.Machine
end

