-- ==== Sys2Proof/Laws/Ops.lean ====
section
/-! SUPPORT. What the shared operations and the meanings answer, said once: the provers cite these instead of unfolding. -/

namespace Sys2Proof.Machine

/-! ### The instance check (R64, R90) -/

theorem requireInstance_live {body : State → State} {s : State} (h : s.ivalid = true) :
    requireInstance body s = .next (body s) := by simp [requireInstance, h]

theorem requireInstance_dead {body : State → State} {s : State} (h : s.ivalid = false) :
    requireInstance body s = .next (raiseErr .noInstance s) := by simp [requireInstance, h]

/-- All the instance check can answer. -/
theorem requireInstance_cases {body : State → State} {s t : State} (h : requireInstance body s = .next t) :
    (s.ivalid = true ∧ t = body s) ∨ (s.ivalid = false ∧ t = raiseErr .noInstance s) := by
  cases hv : s.ivalid <;> simp_all [requireInstance]

/-! ### The meanings -/

theorem exec_new (nonce : Block) (s : State) : exec (.new nonce) s = .next (construct nonce s) := rfl

theorem exec_newVar_16 (opnd : Block) (s : State) : exec (.newVar 16 opnd) s = .next (construct opnd s) := rfl

theorem exec_newVar_other {len : Byte} (h : len ≠ 16) (opnd : Block) (s : State) :
    exec (.newVar len opnd) s = .next (raiseErr .initError s) := by
  have hb : nonceLengthSupported len = false := by simpa [nonceLengthSupported] using h
  simp [exec, execNewVar, hb]

theorem exec_seek {s : State} (h : s.ivalid = true) (offset : Block) :
    exec (.seek offset) s = .next (seekTo offset s) := requireInstance_live h

theorem exec_currentBlock {s : State} (h : s.ivalid = true) :
    exec .currentBlock s = .next (currentBlockWith Config.encryptBlock s) := requireInstance_live h

theorem exec_advanceBlock {s : State} (h : s.ivalid = true) :
    exec .advanceBlock s = .next (advanceOneBlock s) := requireInstance_live h

theorem exec_applyByte {s : State} (h : s.ivalid = true) (din : Byte) :
    exec (.applyByte din) s = .next (applyByteWith Config.encryptBlock din s) := requireInstance_live h

/-- Everything `exec` can do: construct, raise one of two errors, or run one of the four bodies on an instance. -/
theorem exec_cases {i : Instr} {s t : State} (h : exec i s = .next t) :
    (∃ n, (i = .new n ∨ i = .newVar 16 n) ∧ t = construct n s) ∨
    (∃ l n, i = .newVar l n ∧ l ≠ 16 ∧ t = raiseErr .initError s) ∨
    (s.ivalid = false ∧ t = raiseErr .noInstance s ∧
      (i = .currentBlock ∨ i = .advanceBlock ∨ (∃ o, i = .seek o) ∨ ∃ d, i = .applyByte d)) ∨
    (s.ivalid = true ∧
      ((i = .currentBlock ∧ t = currentBlockWith Config.encryptBlock s) ∨
       (i = .advanceBlock ∧ t = advanceOneBlock s) ∨
       (∃ o, i = .seek o ∧ t = seekTo o s) ∨
       ∃ d, i = .applyByte d ∧ t = applyByteWith Config.encryptBlock d s)) := by
  cases i with
  | new n => cases h; exact .inl ⟨n, .inl rfl, rfl⟩
  | newVar l n =>
    by_cases hl : l = 16
    · subst hl; cases h; exact .inl ⟨n, .inr rfl, rfl⟩
    · rw [exec_newVar_other hl] at h; cases h; exact .inr (.inl ⟨l, n, rfl, hl, rfl⟩)
  | currentBlock => rcases requireInstance_cases h with ⟨hv, rfl⟩ | ⟨hv, rfl⟩ <;> simp [hv]
  | advanceBlock => rcases requireInstance_cases h with ⟨hv, rfl⟩ | ⟨hv, rfl⟩ <;> simp [hv]
  | seek o => rcases requireInstance_cases h with ⟨hv, rfl⟩ | ⟨hv, rfl⟩ <;> simp [hv]
  | applyByte d => rcases requireInstance_cases h with ⟨hv, rfl⟩ | ⟨hv, rfl⟩ <;> simp [hv]

/-- No command stops the machine (R88). -/
theorem exec_answers (i : Instr) (s : State) : ∃ t, exec i s = .next t := by
  cases i <;> exact ⟨_, rfl⟩

/-! ### Commands, inputs and steps -/

theorem runCommand_instr {c : Command} {i : Instr} (h : decode c = .instr i) (s : State) :
    runCommand c s = exec i s := by simp [runCommand, h]

theorem runCommand_illegal {c : Command} {r : IllegalReason} (h : decode c = .illegal r) (s : State) :
    runCommand c s = .next (raiseErr .illegal s) := by simp [runCommand, h]

/-- All a command can do: run the instruction it decodes to, or raise `ILLEGAL`. -/
theorem runCommand_cases {c : Command} {s t : State} (h : runCommand c s = .next t) :
    (∃ i, decode c = .instr i ∧ exec i s = .next t) ∨
    (∃ r, decode c = .illegal r ∧ t = raiseErr .illegal s) := by
  cases hd : decode c with
  | instr i => rw [runCommand_instr hd] at h; exact .inl ⟨i, rfl, h⟩
  | illegal r => rw [runCommand_illegal hd] at h; cases h; exact .inr ⟨r, rfl, rfl⟩

theorem runCommand_answers (c : Command) (s : State) : ∃ t, runCommand c s = .next t := by
  cases hd : decode c with
  | instr i => rw [runCommand_instr hd]; exact exec_answers i s
  | illegal r => exact ⟨_, runCommand_illegal hd s⟩

theorem step_idle {s : State} (h : s.inputs = []) : step s = .next s := by simp [step, runNext, fetchInput, h]

theorem step_input {s : State} {x : Input} {rest : List Input} (h : s.inputs = x :: rest) :
    step s = runInput x { s with inputs := rest } := by simp [step, runNext, fetchInput, h]

/-- Everything a step that answers a next state can do: nothing, one command, or a reset. -/
theorem step_cases {s t : State} (h : step s = .next t) :
    (s.inputs = [] ∧ t = s) ∨
    (∃ c rest, s.inputs = .command c :: rest ∧ runCommand c { s with inputs := rest } = .next t) ∨
    (∃ rest, s.inputs = .reset :: rest ∧ t = takeReset { s with inputs := rest }) := by
  cases hx : s.inputs with
  | nil => rw [step_idle hx] at h; cases h; exact .inl ⟨rfl, rfl⟩
  | cons x rest =>
    rw [step_input hx] at h
    cases x with
    | command c => exact .inr (.inl ⟨c, rest, rfl, h⟩)
    | reset => cases h; exact .inr (.inr ⟨rest, rfl, rfl⟩)
    | resetInside c => cases h
    | secondHost c => cases h
    | backendChange => cases h

end Sys2Proof.Machine
end

