-- ==== Sys2Proof/Laws/HostOps.lean ====
section
/-! SUPPORT. Sequences of commands, unfolded once. -/

namespace Sys2Proof.Machine

/-- A sequence whose first command and whose rest are known. -/
theorem runCommands_cons {c : Command} {cs : List Command} {s t u : State} {rs : List Response}
    (h : runCommand c s = .next t) (hs : runCommands cs t = .next (rs, u)) :
    runCommands (c :: cs) s = .next (t.response :: rs, u) := by simp [runCommands, h, hs]

/-- Every sequence of commands completes (R112), with one response a command. -/
theorem runCommands_answers (cs : List Command) (s : State) :
    ∃ rs t, runCommands cs s = .next (rs, t) ∧ rs.length = cs.length := by
  induction cs generalizing s with
  | nil => exact ⟨[], s, rfl, rfl⟩
  | cons c cs ih =>
    obtain ⟨t, ht⟩ := runCommand_answers c s
    obtain ⟨rs, u, hu, hl⟩ := ih t
    exact ⟨t.response :: rs, u, runCommands_cons ht hu, by simp [hl]⟩

/-- A sequence in two parts: the responses follow one another, and the second part starts where the first ended (R39). -/
theorem runCommands_append {a b : List Command} {s t u : State} {rs rs' : List Response}
    (h : runCommands a s = .next (rs, t)) (h' : runCommands b t = .next (rs', u)) :
    runCommands (a ++ b) s = .next (rs ++ rs', u) := by
  induction a generalizing s rs with
  | nil => cases h; exact h'
  | cons c a ih =>
    obtain ⟨s', hs⟩ := runCommand_answers c s
    obtain ⟨rs₁, t₁, h₁, _⟩ := runCommands_answers a s'
    cases (runCommands_cons hs h₁).symm.trans h
    exact runCommands_cons hs (ih h₁)

end Sys2Proof.Machine
end

