-- ==== Sys2Proof/Laws/PerInstr.lean ====
section
/-! SUPPORT. What is said of every instruction as syntax, one lemma a constructor. -/

namespace Sys2Proof.Laws

/-- The encoding of an instruction is a well-formed command word: an assigned opcode, `RSV` zero, `ARG8` zero where it
must be (R45, R47, R51). -/
def EncodingLegal.Statement (i : Instr) : Prop := (encode i).wellFormed = true

theorem EncodingLegal.new (nonce : Block) : EncodingLegal.Statement (.new nonce) := by
  have h : Command.wellFormed ⟨commandWord 1 0, 0⟩ = true := by decide
  exact h

theorem EncodingLegal.newVar (len : Byte) (opnd : Block) : EncodingLegal.Statement (.newVar len opnd) := by
  have h : ∀ l : Byte, (encode (.newVar l 0)).wellFormed = true := by decide
  exact h len

theorem EncodingLegal.currentBlock : EncodingLegal.Statement .currentBlock := rfl

theorem EncodingLegal.advanceBlock : EncodingLegal.Statement .advanceBlock := rfl

theorem EncodingLegal.seek (offset : Block) : EncodingLegal.Statement (.seek offset) := by
  have h : Command.wellFormed ⟨commandWord 5 0, 0⟩ = true := by decide
  exact h

theorem EncodingLegal.applyByte (din : Byte) : EncodingLegal.Statement (.applyByte din) := by
  have h : ∀ d : Byte, (encode (.applyByte d)).wellFormed = true := by decide
  exact h din

end Sys2Proof.Laws
end

