-- ==== Sys2Proof/Laws/Run.lean ====
section
/-! SUPPORT. Runs of the machine, unfolded once. -/

namespace Sys2Proof.Machine

theorem run_of_step (M : Host.Core) {s t : M.State} (h : M.step s = .next t) (n : Nat) : M.run (n + 1) s = M.run n t := by
  simp only [Host.Core.run, h]

theorem run_of_refusal (M : Host.Core) {s : M.State} {r : M.Refusal} (h : M.step s = .refused r) (n : Nat) :
    M.run (n + 1) s = .refused r := by simp only [Host.Core.run, h]

/-- A run goes on from the state a step leads to. -/
theorem core_run_next {s t : State} (h : step s = .next t) (n : Nat) :
    Sys2Proof.core.run (n + 1) s = Sys2Proof.core.run n t := run_of_step Sys2Proof.core (s := s) (t := t) h n

/-- A run ends at a refused step. -/
theorem core_run_refused {s : State} {r : Refusal} (h : step s = .refused r) (n : Nat) :
    Sys2Proof.core.run (n + 1) s = .refused r := run_of_refusal Sys2Proof.core (s := s) (r := r) h n

end Sys2Proof.Machine
end

