-- ==== Sys2Proof/Tests/Slice0.lean ====
section
/-! SUPPORT. Small tests. Expected values are the spec's own: the vectors of 95_test_vectors.md, the worked encodings of
30_encoding.md R58, and words written out from R45 and R47. The vectors use the identity backend (00_scope.md R12), so
tests of a result call the shared operation with `id`. The second half shows, for each statement with hypotheses, values
that meet them. -/

namespace Sys2Proof.Tests

open Sys2Proof.Machine Sys2Proof.Safety

/-- A live instance: nonce `n`, counter `c`, position `p`, empty cache. -/
def live (n c : Block) (p : BitVec 4) : State :=
  { State.reset with nonce := n, ctr := c, bpos := p, ivalid := true }

/-- What a vector shows of a state: `NONCE`, `CTR`, `BPOS`, `STATUS`. -/
def shown (s : State) : Block × Block × BitVec 4 × Word := (s.nonce, s.ctr, s.bpos, s.status)

/-- What a vector shows after a command; none where the machine stops. -/
def shownAfter (o : Host.Outcome State Fault Refusal) : Option (Block × Block × BitVec 4 × Word) :=
  match o with
  | .next s => some (shown s)
  | .fault _ => none
  | .refused _ => none

/-! ### WellFormed: an ill-formed term for each check -/

theorem test_wf_reserved_opcode : Command.wellFormed ⟨0x70000000, 0⟩ = false := by decide
theorem test_wf_opcode_zero : Command.wellFormed ⟨0x00000000, 0⟩ = false := by decide
theorem test_wf_rsv_nonzero : Command.wellFormed ⟨0x10000100, 0⟩ = false := by decide
theorem test_wf_arg8_nonzero : Command.wellFormed ⟨0x10000001, 0⟩ = false := by decide
theorem test_wf_legal : Command.wellFormed ⟨0x600000FF, 0⟩ = true := by decide
theorem test_wf_asm_byte : AsmStmt.wellFormed (.applyByte 256) = false := by decide
theorem test_wf_asm_block : AsmStmt.wellFormed (.seek (2 ^ 128)) = false := by decide
theorem test_wf_asm_sixteen_bytes : AsmStmt.wellFormed (.newBytes [1, 2, 3]) = false := by decide
theorem test_wf_asm_ok : AsmStmt.wellFormed (.newVar 255 (2 ^ 128 - 1)) = true := by decide

/-! ### Decode: words written out bit by bit from R45 and R47 -/

theorem test_decode_new :
    decode ⟨0b00010000000000000000000000000000, 0x2a⟩ = .instr (.new 0x2a) := by decide
theorem test_decode_newVar :
    decode ⟨0b00100000000000000000000000010000, 0x2a⟩ = .instr (.newVar 16 0x2a) := by decide
theorem test_decode_currentBlock :
    decode ⟨0b00110000000000000000000000000000, 0x2a⟩ = .instr .currentBlock := by decide
theorem test_decode_advanceBlock :
    decode ⟨0b01000000000000000000000000000000, 0x2a⟩ = .instr .advanceBlock := by decide
theorem test_decode_seek :
    decode ⟨0b01010000000000000000000000000000, 0x2a⟩ = .instr (.seek 0x2a) := by decide
theorem test_decode_applyByte :
    decode ⟨0b01100000000000000000000010000001, 0x2a⟩ = .instr (.applyByte 0x81) := by decide
theorem test_decode_reserved : decode ⟨0xF0000000, 0⟩ = .illegal .reservedOpcode := by decide
theorem test_decode_rsv : decode ⟨0x60000141, 0⟩ = .illegal .rsvNonZero := by decide
theorem test_decode_arg8 : decode ⟨0x40000001, 0⟩ = .illegal .arg8NonZero := by decide
theorem test_encode_applyByte : encode (.applyByte 0xff) = ⟨0x600000FF, 0⟩ := by decide
theorem test_table_word : decodeTableWord 32 0x20000010 = some (.newVar 16 0) := by decide
theorem test_table_word_operand : decodeTableWord 160 (0x11 * 2 ^ 32 + 0x50000000) = some (.seek 0x11) := by decide

/-! ### The textual syntax (R54 to R58) -/

theorem test_text_seek : assembleLine "seek 0x11 ; block 1".toList = some [⟨0x50000000, 0x11⟩] := by decide
theorem test_text_newVar : assembleLine "new_var 12, 0x0".toList = some [⟨0x2000000C, 0⟩] := by decide
theorem test_text_apply :
    assembleLine "apply 0x43, 7".toList = some [⟨0x60000043, 0⟩, ⟨0x60000007, 0⟩] := by decide
theorem test_text_comment_only : assembleLine "  ; nothing".toList = some [] := by decide
theorem test_text_byte_too_large : assembleLine "apply_byte 256".toList = none := by decide

/-! ### Commands: the derived vectors of 95_test_vectors.md, section 2 -/

/-- V-NEW-2. -/
theorem test_new_replaces : shownAfter (exec (.new 0xffffffffffffffffffffffffffffffff) (live 0x10 0x13 5)) =
    some (0xffffffffffffffffffffffffffffffff, 0xffffffffffffffffffffffffffffffff, 0, 4) := by decide
/-- V-NEWVAR-1. -/
theorem test_newVar_16 : shownAfter (exec (.newVar 16 0x000102030405060708090a0b0c0d0e0f) State.reset) =
    some (0x000102030405060708090a0b0c0d0e0f, 0x000102030405060708090a0b0c0d0e0f, 0, 4) := by decide
/-- V-NEWVAR-5. -/
theorem test_newVar_255 : shownAfter (exec (.newVar 255 0) (live 0x10 0x12 5)) = some (0x10, 0x12, 5, 5) := by decide
/-- V-SEEK-4. -/
theorem test_seek_mid : shownAfter (exec (.seek 0x25) (live 0x10 0x10 0)) = some (0x10, 0x12, 5, 4) := by decide
/-- V-SEEK-7. -/
theorem test_seek_wrap : shownAfter (exec (.seek 0xffffffffffffffffffffffffffffffff)
      (live 0xffffffffffffffffffffffffffffffff 0xffffffffffffffffffffffffffffffff 0)) =
    some (0xffffffffffffffffffffffffffffffff, 0x0ffffffffffffffffffffffffffffffe, 15, 4) := by decide
/-- V-CUR-2. -/
theorem test_currentBlock : (currentBlockWith id (live 0x10 0x12 5)).result = some 0x12 ∧
    shown (currentBlockWith id (live 0x10 0x12 5)) = (0x10, 0x12, 5, 4) := by decide
/-- V-ADV-3. -/
theorem test_advance_carry : shownAfter (exec .advanceBlock (live 0xffffffffffffffff 0xffffffffffffffff 0)) =
    some (0xffffffffffffffff, 0x10000000000000000, 0, 4) := by decide
/-- V-ADV-2. -/
theorem test_advance_wrap : shownAfter (exec .advanceBlock
      (live 0xffffffffffffffffffffffffffffffff 0xffffffffffffffffffffffffffffffff 0)) =
    some (0xffffffffffffffffffffffffffffffff, 0, 0, 4) := by decide
/-- V-APP-2. -/
theorem test_apply_crossing :
    (applyByteWith id 0 (live 0x000102030405060708090a0b0c0d0e0f 0x000102030405060708090a0b0c0d0e0f 15)).result
      = some 0x0f ∧
    shown (applyByteWith id 0 (live 0x000102030405060708090a0b0c0d0e0f 0x000102030405060708090a0b0c0d0e0f 15))
      = (0x000102030405060708090a0b0c0d0e0f, 0x000102030405060708090a0b0c0d0e10, 0, 4) := by decide
/-- V-APP-1, second example of R75: the second byte uses lane 1. -/
theorem test_apply_lane_one :
    (applyByteWith id 0xff (live 0x000102030405060708090a0b0c0d0e0f 0x000102030405060708090a0b0c0d0e0f 1)).result
      = some 0xfe := by decide
/-- V-APP-6. -/
theorem test_apply_no_instance : (shownAfter (exec (.applyByte 0x41) State.reset)).map (·.2.2.2) = some 2 := by decide
/-- V-ERR-4: `ILLEGAL` wins over `NO_INSTANCE`. -/
theorem test_illegal_wins :
    (shownAfter (step (State.reset.withFetchWord 32 0x50000001))).map (·.2.2.2) = some 3 := by decide
/-- V-APP-7: an illegal word leaves the position. -/
theorem test_illegal_keeps_state : shownAfter (step ((live 0x10 0x10 0).withFetchWord 32 0x60000141)) =
    some (0x10, 0x10, 0, 7) := by decide
/-- The byte-array increment drops no carry (W2: `1a ff … ff` to `1b 00 … 00`). -/
theorem test_inc_bytes : incBytes (be16 0x1affffffffffffffffffffffffffffff) =
    (be16 0x1b000000000000000000000000000000).toList := by decide
/-- R27: `STATUS` after reset is 0. -/
theorem test_reset_status : State.reset.status = 0 := by decide

/-! ### Witnesses: the hypotheses of each statement can be met -/

theorem live_cacheOk (n c : Block) (p : BitVec 4) : CacheOk (live n c p) := by simp [CacheOk, live, State.reset]

theorem live_inv (n c : Block) (p : BitVec 4) : Inv (live n c p) where
  cache := live_cacheOk n c p
  cacheLive := fun _ => rfl
  errLive := fun h => by simp [live, State.reset] at h
  resultOk := fun h => by simp [live, State.reset] at h

/-- A state reached from reset with an instance. -/
theorem witness_reached : ∃ s, Reached s ∧ s.ivalid = true :=
  ⟨construct 0x10 State.reset, ⟨[.command ⟨0x10000000, 0x10⟩], 1, rfl⟩, rfl⟩

theorem witness_LegalCommandsAreTheEncodingsOfTheirMeaning :
    decode ⟨0x50000000, 0xff⟩ = .instr (.seek 0xff) := by decide

/-- Each item of R51: opcode 0, opcode 7, opcode 15, `RSV`, `ARG8`; and a legal word. -/
theorem witness_IllegalWordsAreTheThreeItemsAndRaiseIllegal :
    decode ⟨0x00000000, 0⟩ = .illegal .reservedOpcode ∧ decode ⟨0x70000000, 0⟩ = .illegal .reservedOpcode ∧
    decode ⟨0xF0000000, 0⟩ = .illegal .reservedOpcode ∧ decode ⟨0x2FFFFF10, 0⟩ = .illegal .rsvNonZero ∧
    decode ⟨0x500000FF, 0⟩ = .illegal .arg8NonZero ∧ decode ⟨0x20000000, 0⟩ = .instr (.newVar 0 0) := by decide

theorem witness_IgnoredOperandsHaveNoEffect :
    (0x30000000 : Word).extractLsb 31 28 = 3 ∧ (0x40000000 : Word).extractLsb 31 28 = 4 ∧
    (0x600000FF : Word).extractLsb 31 28 = 6 ∧
    ((0x20000011 : Word).extractLsb 31 28 = 2 ∧ (0x20000011 : Word).extractLsb 7 0 ≠ 16) := by decide

/-- Boundary operands of the syntax table, in range and out of it. -/
theorem witness_StatementsAssembleToTheSyntaxTable :
    assemble (.new (2 ^ 128 - 1)) = some [⟨0x10000000, BitVec.allOnes 128⟩] ∧ assemble (.new (2 ^ 128)) = none ∧
    assemble (.applyByte 255) = some [⟨0x600000FF, 0⟩] ∧ assemble (.applyByte 256) = none ∧
    assemble (.newVar 256 0) = none ∧ assemble (.seek (2 ^ 128)) = none := by decide

/-- The three cases of a step: a legal command, an illegal one, nothing presented. -/
theorem witness_StepRunsTheDecodedCommand :
    (presentInput (.command ⟨0x10000000, 5⟩) State.reset).inputs = [.command ⟨0x10000000, 5⟩] ∧
    decode ⟨0x10000000, 5⟩ = .instr (.new 5) ∧ decode ⟨0x70000000, 5⟩ = .illegal .reservedOpcode ∧
    State.reset.inputs = [] := by decide

theorem witness_StepRunsThePlacedTableWord :
    decodeTableWord 32 0x600000FF = some (.applyByte 0xff) ∧
    step (State.reset.withFetchWord 32 0x600000FF) = exec (.applyByte 0xff) State.reset := ⟨by decide, rfl⟩

theorem witness_ResetLeavesNoInstance : (presentInput .reset (live 1 2 3)).inputs = .reset :: [] := by decide

theorem witness_EventsWithoutMeaningAreRefused :
    (presentInput (.resetInside ⟨0x10000000, 0⟩) State.reset).inputs = [.resetInside ⟨0x10000000, 0⟩] ∧
    (presentInput (.secondHost ⟨0x10000000, 0⟩) State.reset).inputs = [.secondHost ⟨0x10000000, 0⟩] ∧
    (presentInput .backendChange State.reset).inputs = [.backendChange] := by decide

/-- Lengths next to 16 and at the ends. -/
theorem witness_NewVarConstructsForSixteenBytesOnly :
    (0 : Byte) ≠ 16 ∧ (15 : Byte) ≠ 16 ∧ (17 : Byte) ≠ 16 ∧ (255 : Byte) ≠ 16 := by decide

/-- An instance with an empty cache, and one with a filled cache that meets its invariant (`SEEK`, `CURRENT_BLOCK`,
`ADVANCE_BLOCK`, and the statements over the cursor that ask for an instance). -/
theorem witness_instance : (live 0x10 0x12 5).ivalid = true ∧ (live 0x10 0x12 5).ksvalid = false ∧
    (fillCache Config.encryptBlock (live 0x10 0x12 5)).ivalid = true ∧
    (fillCache Config.encryptBlock (live 0x10 0x12 5)).ksvalid = true ∧
    CacheOk (fillCache Config.encryptBlock (live 0x10 0x12 5)) :=
  ⟨rfl, rfl, rfl, rfl, fun _ => rfl⟩

/-- Both clauses: before byte 15 (positions 0 and 14) and at it. -/
theorem witness_ApplyByteXorsAndMovesTheCursor :
    (live 1 1 0).ivalid = true ∧ CacheOk (live 1 1 0) ∧ (live 1 1 0).bpos ≠ 15 ∧ (live 1 1 14).bpos ≠ 15 ∧
    (live 1 1 15).ivalid = true ∧ CacheOk (live 1 1 15) ∧ (live 1 1 15).bpos = 15 :=
  ⟨rfl, live_cacheOk _ _ _, by decide, by decide, rfl, live_cacheOk _ _ _, rfl⟩

theorem witness_CommandsWithoutAnInstanceRaiseNoInstance :
    State.reset.ivalid = false ∧ ∃ offset, Instr.seek 3 = .seek offset := ⟨rfl, 3, rfl⟩

/-- An erroring command of each kind. -/
theorem witness_ErroringCommandsChangeNothingElse :
    runCommand ⟨0x70000000, 0⟩ (live 1 1 0) = .next (raiseErr .illegal (live 1 1 0)) ∧
    runCommand ⟨0x20000000, 0⟩ (live 1 1 0) = .next (raiseErr .initError (live 1 1 0)) ∧
    runCommand ⟨0x30000000, 0⟩ State.reset = .next (raiseErr .noInstance State.reset) ∧
    ErrCode.illegal ≠ .ok ∧ ErrCode.initError ≠ .ok ∧ ErrCode.noInstance ≠ .ok :=
  ⟨rfl, rfl, rfl, by decide, by decide, by decide⟩

theorem witness_CommandsOnAnInstanceAlwaysCompleteWithOk :
    (live 1 1 0).ivalid = true ∧ needsInstance .currentBlock = true ∧ needsInstance .advanceBlock = true ∧
    needsInstance (.seek 0) = true ∧ needsInstance (.applyByte 0) = true := by decide

/-- Every command completes with `OK` somewhere. -/
theorem witness_CommandsWriteOnlyWhatTheMatrixMarks :
    (exec (.new 7) State.reset = .next (construct 7 State.reset) ∧ (construct 7 State.reset).err = .ok) ∧
    (exec (.newVar 16 7) State.reset = .next (construct 7 State.reset)) ∧
    (exec (.seek 9) (live 1 1 0) = .next (seekTo 9 (live 1 1 0)) ∧ (seekTo 9 (live 1 1 0)).err = .ok) ∧
    (exec .currentBlock (live 1 1 0) = .next (currentBlockWith Config.encryptBlock (live 1 1 0)) ∧
      (currentBlockWith Config.encryptBlock (live 1 1 0)).err = .ok) ∧
    (exec .advanceBlock (live 1 1 0) = .next (advanceOneBlock (live 1 1 0)) ∧
      (advanceOneBlock (live 1 1 0)).err = .ok) ∧
    (exec (.applyByte 3) (live 1 1 0) = .next (applyByteWith Config.encryptBlock 3 (live 1 1 0)) ∧
      (applyByteWith Config.encryptBlock 3 (live 1 1 0)).err = .ok) :=
  ⟨⟨rfl, rfl⟩, rfl, ⟨rfl, rfl⟩, ⟨rfl, rfl⟩, ⟨rfl, rfl⟩, ⟨rfl, rfl⟩⟩

/-- A command that leaves a defined result, one that leaves none, and a reset. -/
theorem witness_ResultIsDefinedOnlyAfterTheTwoReadingCommands :
    (∃ t, runCommand ⟨0x30000000, 0⟩ (live 1 1 0) = .next t ∧ t.result.isSome = true) ∧
    (∃ t, runCommand ⟨0x40000000, 0⟩ (live 1 1 0) = .next t ∧ t.result.isSome = false) ∧
    (∃ t, (presentInput .reset (live 1 1 0)).inputs = [.reset] ∧ step (presentInput .reset (live 1 1 0)) = .next t) :=
  ⟨⟨_, rfl, rfl⟩, ⟨_, rfl, rfl⟩, ⟨_, rfl, rfl⟩⟩

/-- `IVALID` set by a `NEW`, cleared by a reset, and a command without an instance. -/
theorem witness_OnlyConstructionSetsAndOnlyResetClearsIvalid :
    (∃ t, step (presentInput (.command ⟨0x10000000, 5⟩) State.reset) = .next t ∧ t.ivalid = true) ∧
    (∃ t, step (presentInput .reset (live 1 1 0)) = .next t ∧ t.ivalid = false) ∧
    (decode ⟨0x40000000, 0⟩ = .instr .advanceBlock ∧ State.reset.ivalid = false) :=
  ⟨⟨_, rfl, rfl⟩, ⟨_, rfl, rfl⟩, by decide⟩

/-- A command that changes `NONCE`, one that changes `CTR`, one that changes `BPOS`. -/
theorem witness_NonceAndCursorChangeOnlyAtTheirCommands :
    (∃ t, runCommand ⟨0x10000000, 5⟩ (live 1 1 0) = .next t ∧ t.nonce ≠ (live 1 1 0).nonce) ∧
    (∃ t, runCommand ⟨0x40000000, 0⟩ (live 1 1 0) = .next t ∧ t.ctr ≠ (live 1 1 0).ctr) ∧
    (∃ t, runCommand ⟨0x60000000, 0⟩ (live 1 1 0) = .next t ∧ t.bpos ≠ (live 1 1 0).bpos) :=
  ⟨⟨_, rfl, by decide⟩, ⟨_, rfl, by decide⟩, ⟨_, rfl, by decide⟩⟩

/-- Two instances with different counters and the same command; and an instance at the last counter value. -/
theorem witness_CounterWrapLeavesNoTraceInStatus :
    ((live 1 1 0).ivalid = (live 1 (BitVec.allOnes 128) 0).ivalid) ∧
    (∃ t, runCommand ⟨0x40000000, 0⟩ (live 1 1 0) = .next t) ∧
    (∃ t, runCommand ⟨0x40000000, 0⟩ (live 1 (BitVec.allOnes 128) 0) = .next t) ∧
    (live 1 (BitVec.allOnes 128) 0).ctr = BitVec.allOnes 128 ∧
    (live 1 1 0).ivalid = true ∧ (∃ t, runCommand ⟨0x50000000, 9⟩ (live 1 1 0) = .next t ∧ t.err = .ok) :=
  ⟨rfl, ⟨_, rfl⟩, ⟨_, rfl⟩, rfl, rfl, ⟨_, rfl, rfl⟩⟩

theorem witness_SeekCurrentBlockAndNewAreIdempotent :
    ∃ t u, exec (.seek 0x25) (live 0x10 0x10 0) = .next t ∧ exec (.seek 0x25) t = .next u := ⟨_, _, rfl, rfl⟩

theorem witness_IncrementIsTheByteArrayIncrement : (BitVec.allOnes 128 - 1 : Block) ≠ BitVec.allOnes 128 := by decide

/-- The cursor `2^132 - 1`. -/
theorem witness_AdvancingMovesTheCursorModulo2Pow132 :
    (live 1 0 15).ivalid = true ∧ (live 1 0 15).cursor = BitVec.allOnes 132 := by decide

/-- The largest offset the second clause takes, and the least cursor the third takes. -/
theorem witness_SeekReachesTheOffsetsBelow2Pow128 :
    (live 1 1 0).ivalid = true ∧ (BitVec.ofNat 128 (2 ^ 128 - 17)).toNat + 16 < 2 ^ 128 ∧
    2 ^ 128 ≤ (live 0 (BitVec.ofNat 128 (2 ^ 124)) 0).cursor.toNat := by decide

theorem witness_EveryStepKeepsTheInvariant :
    Inv (live 1 1 0) ∧ ∃ t, step (presentInput (.command ⟨0x30000000, 0⟩) (live 1 1 0)) = .next t :=
  ⟨live_inv 1 1 0, ⟨_, rfl⟩⟩

/-- Two states that differ in the cache only, both meeting the invariant. -/
theorem witness_CacheContentsAreUnobservable :
    Inv (live 1 1 0) ∧ Inv (fillCache Config.encryptBlock (live 1 1 0)) ∧
    SameButCache (live 1 1 0) (fillCache Config.encryptBlock (live 1 1 0)) ∧
    (live 1 1 0).ksvalid ≠ (fillCache Config.encryptBlock (live 1 1 0)).ksvalid :=
  ⟨live_inv 1 1 0,
    ⟨fun _ => rfl, fun _ => rfl, fun h => by simp [live, State.reset] at h, fun h => by simp [live, State.reset] at h⟩,
    ⟨rfl, rfl, rfl, rfl, rfl, rfl, rfl, rfl⟩, by simp [live, State.reset]⟩

theorem witness_UnspecifiedResetValuesAreUnobservable :
    State.reset.ivalid = false ∧ State.reset.ksvalid = false ∧
    ({ State.reset with nonce := 7, ctr := 8, bpos := 9, ksbuf := 10 } : State).ivalid = false ∧
    ({ State.reset with nonce := 7, ctr := 8, bpos := 9, ksbuf := 10 } : State).ksvalid = false := by decide

/-- Two states without an instance and with different registers look the same. -/
theorem witness_StatesThatLookTheSameStaySo :
    Inv State.reset ∧ Inv { State.reset with nonce := 7, ctr := 8 } ∧
    LooksSame State.reset { State.reset with nonce := 7, ctr := 8 } := by
  refine ⟨?_, ?_, ?_⟩ <;> constructor <;> simp [CacheOk, State.reset]

theorem witness_SeekDeterminesTheState :
    (live 5 1 0).ivalid = true ∧ (live 5 9 3).ivalid = true ∧ (live 5 1 0).nonce = (live 5 9 3).nonce := by decide

/-- Two instances at the same nonce and cursor, one with a filled cache. -/
theorem witness_InstancesAtTheSameCursorAnswerAlike :
    CacheOk (live 5 9 3) ∧ CacheOk (fillCache Config.encryptBlock (live 5 9 3)) ∧ (live 5 9 3).ivalid = true ∧
    (fillCache Config.encryptBlock (live 5 9 3)).ivalid = true ∧
    (live 5 9 3).nonce = (fillCache Config.encryptBlock (live 5 9 3)).nonce ∧
    (live 5 9 3).cursor = (fillCache Config.encryptBlock (live 5 9 3)).cursor :=
  ⟨live_cacheOk _ _ _, fun _ => rfl, rfl, rfl, rfl, rfl⟩

/-- Position 15, at an ordinary counter and at the last one. -/
theorem witness_BlockCrossingUsesTheOldBlockThenTheNext :
    (live 1 1 15).ivalid = true ∧ CacheOk (live 1 1 15) ∧ (live 1 1 15).bpos = 15 ∧
    CacheOk (live 1 (BitVec.allOnes 128) 15) ∧ (live 1 (BitVec.allOnes 128) 15).ctr = BitVec.allOnes 128 :=
  ⟨rfl, live_cacheOk _ _ _, rfl, live_cacheOk _ _ _, rfl⟩

theorem witness_OnlyTheResultDependsOnTheData :
    ∃ t₁ t₂, exec (.applyByte 1) (live 1 1 0) = .next t₁ ∧ exec (.applyByte 2) (live 1 1 0) = .next t₂ :=
  ⟨_, _, rfl, rfl⟩

theorem witness_BufferIsXoredWithTheKeystreamFromTheCursor :
    (live 0x10 0x12 5).ivalid = true ∧ CacheOk (live 0x10 0x12 5) := ⟨rfl, live_cacheOk _ _ _⟩

theorem witness_SplittingABufferChangesNothing :
    (List.replicate 16 (0 : Byte)).length = 16 ∧ [(0 : Byte)].length = 1 := by decide

/-- An instance in the middle of a block, before a buffer is applied. -/
theorem witness_ApplyingTwiceFromTheSameOffsetGivesTheBufferBack : (live 0x10 0x12 5).ivalid = true := rfl

theorem witness_RewindRestoresTheOriginalAlignment : (live 0x10 0x12 5).ivalid = true := rfl

/-- An instance at cursor 37 and another, sought to 37 + 3. -/
theorem witness_SeparateInstancesCoverDisjointRegions :
    (live 0x10 0x12 5).ivalid = true ∧ (live 0x10 0x10 0).ivalid = true ∧ CacheOk (live 0x10 0x12 5) ∧
    (live 0x10 0x12 5).nonce = (live 0x10 0x10 0).nonce ∧
    (40 : Block).setWidth 132 = (live 0x10 0x12 5).cursor + BitVec.ofNat 132 [(1 : Byte), 2, 3].length :=
  ⟨rfl, rfl, live_cacheOk _ _ _, rfl, by decide⟩

end Sys2Proof.Tests
end

namespace Sys2Proof.Machine

/-! ### Which command a step runs (R10, R64) -/

theorem step_command {s : State} {c : Command} {rest : List Input} (h : s.inputs = .command c :: rest) :
    step s = runCommand c { s with inputs := rest } := step_input h

/-- Presenting an input and stepping takes it off again, so it runs at the state it was presented to. -/
@[simp] theorem step_presentInput (x : Input) (s : State) : step (presentInput x s) = runInput x s := rfl

@[simp] theorem step_withFetchWord (s : State) (nbits w : Nat) :
    step (s.withFetchWord nbits w) = runCommand (commandOfTableWord nbits w) s := step_presentInput _ s

theorem decode_of_decodeTableWord {nbits w : Nat} {i : Instr} (h : decodeTableWord nbits w = some i) :
    decode (commandOfTableWord nbits w) = .instr i := by
  unfold decodeTableWord at h
  split at h
  · next j hj => rw [hj, Option.some.inj h]
  · contradiction

/-- Settles O8, from what a step does with a command and what a command does at each outcome of decoding. -/
theorem stepRunsTheDecodedCommand : Obligations.StepRunsTheDecodedCommand := by
  refine ⟨fun s c rest i hin hdec => ?_, fun s c rest r hin hdec => ?_, fun s hin => step_idle hin⟩
  · rw [step_command hin, runCommand_instr hdec]
  · rw [step_command hin, runCommand_illegal hdec, raiseErr]

/-- Settles O9: the placed word is the command the next step runs, and it decodes to the instruction. -/
theorem stepRunsThePlacedTableWord : Obligations.StepRunsThePlacedTableWord := by
  intro s nbits w i h
  rw [step_withFetchWord, runCommand_instr (decode_of_decodeTableWord h)]

/-! ### Byte lanes and the two byte functions (R8) -/

/-- A lane in integer form: the value without the bytes below the lane, modulo 256. -/
theorem toNat_lane (j : BitVec 4) (v : Block) :
    (lane j v).toNat = v.toNat / 2 ^ (120 - 8 * j.toNat) % 256 := by
  simp [lane, Nat.shiftRight_eq_div_pow]

theorem getLsbD_lane (j : BitVec 4) (v : Block) {k : Nat} (hk : k < 8) :
    (lane j v).getLsbD k = v.getLsbD (120 - 8 * j.toNat + k) := by
  simp [lane, hk]

/-- The 16 lanes determine the value: its bit `i` is bit `i % 8` of lane `15 - i / 8`. -/
theorem eq_of_lane_eq {v w : Block} (h : ∀ j, lane j v = lane j w) : v = w := by
  apply BitVec.eq_of_getLsbD_eq
  intro i hi
  have hj : (BitVec.ofNat 4 (15 - i / 8)).toNat = 15 - i / 8 := by
    rw [BitVec.toNat_ofNat]; omega
  have hpos : 120 - 8 * (BitVec.ofNat 4 (15 - i / 8)).toNat + i % 8 = i := by omega
  have hk : i % 8 < 8 := Nat.mod_lt _ (by decide)
  rw [← hpos, ← getLsbD_lane _ _ hk, ← getLsbD_lane _ _ hk, h]

@[simp] theorem getElem_be16 (v : Block) (j : Fin 16) : (be16 v)[j] = lane (BitVec.ofFin j) v := by
  fin_cases j <;> rfl

/-- The lane at `j` lies below the bytes before `b[j]`, which the first rewriting drops, and above the bytes after it,
which the second drops; `b[j]` itself is left. -/
@[simp] theorem lane_fromBe16 (b : Bytes16) (j : Fin 16) : lane (BitVec.ofFin j) (fromBe16 b) = b[j] := by
  fin_cases j <;>
    simp (disch := decide) only [lane, fromBe16, BitVec.extractLsb'_append_eq_of_add_le,
      BitVec.extractLsb'_append_eq_of_le] <;>
    exact BitVec.extractLsb'_eq_self

@[simp] theorem fromBe16_be16 (v : Block) : fromBe16 (be16 v) = v :=
  eq_of_lane_eq fun j => (lane_fromBe16 (be16 v) j.toFin).trans (getElem_be16 v j.toFin)

@[simp] theorem be16_fromBe16 (b : Bytes16) : be16 (fromBe16 b) = b :=
  Vector.ext fun j hj => (getElem_be16 (fromBe16 b) ⟨j, hj⟩).trans (lane_fromBe16 b ⟨j, hj⟩)

/-- An append in integer form: the high part moves up by the width of the low part. -/
theorem toNat_append_eq_add {m n : Nat} (x : BitVec m) (y : BitVec n) :
    (x ++ y).toNat = x.toNat * 2 ^ n + y.toNat := by
  rw [BitVec.toNat_append, ← Nat.shiftLeft_add_eq_or_of_lt y.isLt, Nat.shiftLeft_eq]

/-- The big-endian value as a weighted sum: the appends give the weights, byte 0 the greatest. -/
theorem toNat_fromBe16 (b : Bytes16) : (fromBe16 b).toNat = ∑ j : Fin 16, b[j].toNat * 256 ^ (15 - j.val) := by
  simp only [fromBe16, toNat_append_eq_add]
  simp [Fin.sum_univ_succ]

/-- Settles O30, from the lanes of `be16`, the two inverse laws and the weighted sum. -/
theorem bytesAreBigEndian : Obligations.BytesAreBigEndian :=
  ⟨fun v j => ⟨getElem_be16 v j, toNat_lane (BitVec.ofFin j) v⟩, fromBe16_be16, be16_fromBe16, toNat_fromBe16⟩

end Sys2Proof.Machine

namespace Sys2Proof.Machine

open Sys2Proof.Safety

/-! ### What one input does to the state

The input and `IVALID` alone decide which operation runs. The claims about all steps, of one state or of two, are case
splits over the seven operations below. -/

/-- The operations an input can run where `IVALID` is `live`. -/
inductive InputEffect (live : Bool) : (State → State) → Prop
  | construct (nonce : Block) : InputEffect live (construct nonce)
  | raise (code : ErrCode) (dead : code = .noInstance → live = false) : InputEffect live (raiseErr code)
  | currentBlock (alive : live = true) : InputEffect live (currentBlockWith Config.encryptBlock)
  | advanceBlock (alive : live = true) : InputEffect live advanceOneBlock
  | seek (offset : Block) (alive : live = true) : InputEffect live (seekTo offset)
  | applyByte (din : Byte) (alive : live = true) : InputEffect live (applyByteWith Config.encryptBlock din)
  | reset : InputEffect live takeReset

theorem requireInstance_effect {body : State → State} {live : Bool} (h : live = true → InputEffect live body) :
    ∃ f, InputEffect live f ∧ ∀ s : State, s.ivalid = live → requireInstance body s = .next (f s) := by
  cases live with
  | false => exact ⟨_, .raise .noInstance fun _ => rfl, fun _ hs => requireInstance_dead hs⟩
  | true => exact ⟨_, h rfl, fun _ hs => requireInstance_live hs⟩

theorem exec_effect (i : Instr) (live : Bool) :
    ∃ f, InputEffect live f ∧ ∀ s : State, s.ivalid = live → exec i s = .next (f s) := by
  cases i with
  | new n => exact ⟨_, .construct n, fun s _ => exec_new n s⟩
  | newVar l n =>
    by_cases hl : l = 16
    · subst hl; exact ⟨_, .construct n, fun s _ => exec_newVar_16 n s⟩
    · exact ⟨_, .raise .initError nofun, fun s _ => exec_newVar_other hl n s⟩
  | currentBlock => exact requireInstance_effect .currentBlock
  | advanceBlock => exact requireInstance_effect .advanceBlock
  | seek o => exact requireInstance_effect (.seek o)
  | applyByte d => exact requireInstance_effect (.applyByte d)

theorem runCommand_effect (c : Command) (live : Bool) :
    ∃ f, InputEffect live f ∧ ∀ s : State, s.ivalid = live → runCommand c s = .next (f s) := by
  cases hd : decode c with
  | instr i => simpa only [runCommand_instr hd] using exec_effect i live
  | illegal r => exact ⟨_, .raise .illegal nofun, fun s _ => runCommand_illegal hd s⟩

/-- An input either runs an operation that it and `IVALID` decide, or is refused in every state. -/
theorem runInput_effect (x : Input) (live : Bool) :
    (∃ f, InputEffect live f ∧ ∀ s : State, s.ivalid = live → runInput x s = .next (f s)) ∨
    ∃ r, ∀ s : State, runInput x s = .refused r := by
  cases x with
  | command c => exact .inl (runCommand_effect c live)
  | reset => exact .inl ⟨_, .reset, fun _ _ => rfl⟩
  | resetInside c => exact .inr ⟨_, fun _ => rfl⟩
  | secondHost c => exact .inr ⟨_, fun _ => rfl⟩
  | backendChange => exact .inr ⟨_, fun _ => rfl⟩

/-! ### The cached block (R18) -/

/-- What a command that reads the cache finds there, filled before or filled by it. -/
theorem cachedBlock_eq_keystream {s : State} (h : CacheOk s) :
    (if s.ksvalid then s.ksbuf else encryptWord Config.encryptBlock s.ctr) = keystream s.ctr := by
  split
  · next hv => exact h hv
  · rfl

theorem currentBlockWith_result_of_cacheOk {s : State} (h : CacheOk s) :
    (currentBlockWith Config.encryptBlock s).result = some (keystream s.ctr) := by
  rw [currentBlockWith_result, cachedBlock_eq_keystream h]

theorem applyByteWith_result_of_cacheOk {s : State} (h : CacheOk s) (din : Byte) :
    (applyByteWith Config.encryptBlock din s).result
      = some ((din ^^^ lane s.bpos (keystream s.ctr)).setWidth 128) := by
  rw [applyByteWith_result, cachedBlock_eq_keystream h]

/-- An empty cache meets the cache's invariant. -/
theorem cacheOk_of_empty {s : State} (h : s.ksvalid = false) : CacheOk s :=
  fun hv => absurd hv (by simp [h])

/-! ### What every operation keeps -/

section
variable {live : Bool} {f : State → State}

theorem InputEffect.inputs (he : InputEffect live f) (s : State) : (f s).inputs = s.inputs := by
  cases he <;> simp

/-- The error code an operation writes does not depend on the state. -/
theorem InputEffect.err_eq (he : InputEffect live f) (s t : State) : (f s).err = (f t).err := by
  cases he <;> simp

theorem InputEffect.ivalid_eq (he : InputEffect live f) {s t : State} (h : s.ivalid = t.ivalid) :
    (f s).ivalid = (f t).ivalid := by
  cases he <;> simp [h]

theorem InputEffect.cacheOk (he : InputEffect live f) {s : State} (h : CacheOk s) : CacheOk (f s) := by
  cases he with
  | construct n => exact cacheOk_of_empty rfl
  | raise code _ => exact h
  | currentBlock _ => intro _; simpa using cachedBlock_eq_keystream h
  | advanceBlock _ => exact cacheOk_of_empty rfl
  | seek o _ => exact cacheOk_of_empty rfl
  | applyByte d _ =>
    intro hv
    have hp : s.bpos ≠ 15 := by simpa using hv
    simpa only [applyByteWith_ksbuf, applyByteWith_ctr, if_neg hp] using cachedBlock_eq_keystream h
  | reset => exact cacheOk_of_empty rfl

/-- The two commands that fill the cache and drive a result run on an instance only, and then report `OK`. -/
theorem InputEffect.inv {s : State} (he : InputEffect s.ivalid f) (h : Inv s) : Inv (f s) where
  cache := he.cacheOk h.cache
  cacheLive := by
    cases he with
    | construct _ | advanceBlock _ | seek _ _ | reset => simp
    | raise _ _ => exact h.cacheLive
    | currentBlock alive | applyByte _ alive => simp [alive]
  errLive := by
    cases he with
    | raise _ dead => exact dead
    | construct _ | currentBlock _ | advanceBlock _ | seek _ _ | applyByte _ _ | reset => simp
  resultOk := by
    cases he with
    | construct _ | raise _ _ | advanceBlock _ | seek _ _ | reset => simp
    | currentBlock alive | applyByte _ alive => simp [alive]

end

/-! ### The invariant over steps -/

/-- The invariant does not read the inputs to come. -/
theorem inv_withInputs {s : State} (h : Inv s) (rest : List Input) : Inv { s with inputs := rest } :=
  ⟨h.cache, h.cacheLive, h.errLive, h.resultOk⟩

theorem inv_of_runInput {x : Input} {s t : State} (h : Inv s) (ht : runInput x s = .next t) : Inv t := by
  obtain ⟨f, he, hf⟩ | ⟨r, hr⟩ := runInput_effect x s.ivalid
  · cases (hf s rfl).symm.trans ht
    exact he.inv h
  · cases (hr s).symm.trans ht

/-- Settles O39: every operation an input can run keeps the invariant. -/
theorem everyStepKeepsTheInvariant : Obligations.EveryStepKeepsTheInvariant := by
  intro s t h hst
  cases hx : s.inputs with
  | nil => cases (step_idle hx).symm.trans hst; exact h
  | cons x rest => exact inv_of_runInput (inv_withInputs h rest) ((step_input hx).symm.trans hst)

/-- Settles O38: at reset the cache is empty, and there is neither an error nor a result. -/
theorem invariantHoldsAtReset : Obligations.InvariantHoldsAtReset where
  cache := cacheOk_of_empty rfl
  cacheLive := nofun
  errLive := nofun
  resultOk := nofun

end Sys2Proof.Machine

namespace Sys2Proof.Machine

open Sys2Proof.Safety

/-! ### Two states with the same instance answer alike (R18, R27, R71)

`SameInstance` is the part of `LooksSame` that decides what a command answers, and both it and `SameButCache` are kept
by every operation. -/

/-- Both have no instance, or both have one with the same nonce, counter and position. -/
structure SameInstance (s t : State) : Prop where
  ivalid : s.ivalid = t.ivalid
  nonce : s.ivalid = true → s.nonce = t.nonce
  ctr : s.ivalid = true → s.ctr = t.ctr
  bpos : s.ivalid = true → s.bpos = t.bpos

theorem sameInstance_of_sameButCache {s t : State} (h : SameButCache s t) : SameInstance s t :=
  ⟨h.ivalid, fun _ => h.nonce, fun _ => h.ctr, fun _ => h.bpos⟩

theorem sameInstance_of_dead {s t : State} (hs : s.ivalid = false) (ht : t.ivalid = false) : SameInstance s t where
  ivalid := hs.trans ht.symm
  nonce := by simp [hs]
  ctr := by simp [hs]
  bpos := by simp [hs]

theorem status_congr {s t : State} (hiv : s.ivalid = t.ivalid) (herr : s.err = t.err) : s.status = t.status := by
  rw [State.status, State.status, hiv, herr]

theorem response_congr {s t : State} (hiv : s.ivalid = t.ivalid) (herr : s.err = t.err) (hres : s.result = t.result) :
    s.response = t.response := by
  rw [State.response, State.response, status_congr hiv herr, hres]

section
variable {s t : State} {f : State → State}

theorem InputEffect.sameInstance (he : InputEffect s.ivalid f) (h : SameInstance s t) : SameInstance (f s) (f t) where
  ivalid := he.ivalid_eq h.ivalid
  nonce := by
    cases he with
    | construct _ | reset => simp
    | raise _ _ => exact h.nonce
    | currentBlock alive | advanceBlock alive | seek _ alive | applyByte _ alive => simp [h.nonce alive]
  ctr := by
    cases he with
    | construct _ | reset => simp
    | raise _ _ => exact h.ctr
    | currentBlock alive | advanceBlock alive => simp [h.ctr alive]
    | seek _ alive => simp [h.nonce alive]
    | applyByte _ alive => simp [h.ctr alive, h.bpos alive]
  bpos := by
    cases he with
    | construct _ | seek _ _ | reset => simp
    | raise _ _ => exact h.bpos
    | currentBlock alive | advanceBlock alive | applyByte _ alive => simp [h.bpos alive]

/-- The two commands that drive a result drive the keystream at the counter, whatever the cache holds. -/
theorem InputEffect.result_eq (he : InputEffect s.ivalid f) (h : SameInstance s t) (hs : CacheOk s) (ht : CacheOk t) :
    (f s).result = (f t).result := by
  cases he with
  | construct _ | raise _ _ | advanceBlock _ | seek _ _ | reset => simp
  | currentBlock alive =>
    rw [currentBlockWith_result_of_cacheOk hs, currentBlockWith_result_of_cacheOk ht, h.ctr alive]
  | applyByte d alive =>
    rw [applyByteWith_result_of_cacheOk hs, applyByteWith_result_of_cacheOk ht, h.ctr alive, h.bpos alive]

theorem InputEffect.response_eq (he : InputEffect s.ivalid f) (h : SameInstance s t) (hs : CacheOk s) (ht : CacheOk t) :
    (f s).response = (f t).response :=
  response_congr (he.ivalid_eq h.ivalid) (he.err_eq s t) (he.result_eq h hs ht)

theorem InputEffect.looksSame (he : InputEffect s.ivalid f) (h : SameInstance s t) (hin : s.inputs = t.inputs)
    (hs : CacheOk s) (ht : CacheOk t) : LooksSame (f s) (f t) := by
  obtain ⟨hiv, hnonce, hctr, hbpos⟩ := he.sameInstance h
  have hin' : (f s).inputs = (f t).inputs := (he.inputs s).trans (hin.trans (he.inputs t).symm)
  exact ⟨hiv, he.err_eq s t, he.result_eq h hs ht, hin', hnonce, hctr, hbpos⟩

/-- A reset takes its free values at `freeIdx`, which the two states share. -/
theorem InputEffect.sameButCache (he : InputEffect s.ivalid f) (h : SameButCache s t) (hs : CacheOk s)
    (ht : CacheOk t) : SameButCache (f s) (f t) where
  nonce := by cases he <;> simp [h.nonce, h.freeIdx]
  ctr := by cases he <;> simp [h.nonce, h.ctr, h.bpos, h.freeIdx]
  bpos := by cases he <;> simp [h.bpos, h.freeIdx]
  ivalid := he.ivalid_eq h.ivalid
  err := he.err_eq s t
  result := he.result_eq (sameInstance_of_sameButCache h) hs ht
  inputs := (he.inputs s).trans (h.inputs.trans (he.inputs t).symm)
  freeIdx := by cases he <;> simp [h.freeIdx]

end

/-! ### Two states step by step, and over a run -/

/-- Two states with the same inputs to come and the same `IVALID` run the same operation in one step, or none, or are
refused alike; so a relation that every operation keeps is kept by the step. -/
theorem step_related {R : State → State → Prop} {s t : State} (hin : s.inputs = t.inputs) (hiv : s.ivalid = t.ivalid)
    (hidle : R s t)
    (hrun : ∀ f rest, InputEffect s.ivalid f → R (f { s with inputs := rest }) (f { t with inputs := rest })) :
    (∃ s' t', step s = .next s' ∧ step t = .next t' ∧ R s' t') ∨
    ∃ r, step s = .refused r ∧ step t = .refused r := by
  cases hx : s.inputs with
  | nil => exact .inl ⟨s, t, step_idle hx, step_idle (hin ▸ hx), hidle⟩
  | cons x rest =>
    rw [step_input hx, step_input (hin ▸ hx)]
    obtain ⟨f, he, hf⟩ | ⟨r, hr⟩ := runInput_effect x s.ivalid
    · exact .inl ⟨_, _, hf _ rfl, hf _ hiv.symm, hrun f rest he⟩
    · exact .inr ⟨r, hr _, hr _⟩

/-- Settles O40: every operation keeps agreement on all but the cache, and the step keeps the invariant (O39). -/
theorem cacheContentsAreUnobservable : Obligations.CacheContentsAreUnobservable := by
  intro s t hs ht h
  have hrun : ∀ f rest, InputEffect s.ivalid f →
      SameButCache (f { s with inputs := rest }) (f { t with inputs := rest }) := fun f rest he =>
    he.sameButCache (s := { s with inputs := rest }) (t := { t with inputs := rest })
      ⟨h.nonce, h.ctr, h.bpos, h.ivalid, h.err, h.result, rfl, h.freeIdx⟩ hs.cache ht.cache
  refine (step_related h.inputs h.ivalid h hrun).imp_left ?_
  rintro ⟨s', t', hs', ht', h'⟩
  exact ⟨s', t', hs', ht', everyStepKeepsTheInvariant s s' hs hs', everyStepKeepsTheInvariant t t' ht ht', h',
    response_congr h'.ivalid h'.err h'.result⟩

theorem step_looksSame {s t : State} (hs : Inv s) (ht : Inv t) (h : LooksSame s t) :
    (∃ s' t', step s = .next s' ∧ step t = .next t' ∧ LooksSame s' t') ∨
    ∃ r, step s = .refused r ∧ step t = .refused r :=
  step_related h.inputs h.ivalid h fun _ rest he =>
    he.looksSame (s := { s with inputs := rest }) (t := { t with inputs := rest })
      ⟨h.ivalid, h.nonce, h.ctr, h.bpos⟩ rfl hs.cache ht.cache

/-- Settles O42, by induction on the number of steps: each keeps the invariant (O39) and what the host sees. -/
theorem statesThatLookTheSameStaySo : Obligations.StatesThatLookTheSameStaySo := by
  intro n
  induction n with
  | zero =>
    intro s t _ _ h
    exact .inl ⟨s, t, rfl, rfl, h, response_congr h.ivalid h.err h.result⟩
  | succ n ih =>
    intro s t hs ht h
    obtain ⟨s', t', hs', ht', h'⟩ | ⟨r, hr, hr'⟩ := step_looksSame hs ht h
    · rw [core_run_next hs', core_run_next ht']
      exact ih s' t' (everyStepKeepsTheInvariant s s' hs hs') (everyStepKeepsTheInvariant t t' ht ht') h'
    · exact .inr ⟨r, core_run_refused hr n, core_run_refused hr' n⟩

/-- Two states with the same instance, whatever their inputs to come and their last outcome, answer every sequence of
commands alike. -/
theorem runCommands_sameInstance (cs : List Command) {s t : State} (h : SameInstance s t) (hs : CacheOk s)
    (ht : CacheOk t) :
    ∃ rs s' t', runCommands cs s = .next (rs, s') ∧ runCommands cs t = .next (rs, t') := by
  induction cs generalizing s t with
  | nil => exact ⟨[], s, t, rfl, rfl⟩
  | cons c cs ih =>
    obtain ⟨f, he, hf⟩ := runCommand_effect c s.ivalid
    obtain ⟨rs, s', t', hs', ht'⟩ := ih (he.sameInstance h) (he.cacheOk hs) (he.cacheOk ht)
    refine ⟨(f s).response :: rs, s', t', runCommands_cons (hf s rfl) hs', ?_⟩
    rw [he.response_eq h hs ht]
    exact runCommands_cons (hf t h.ivalid.symm) ht'

/-- Settles O41: two states without an instance have the same (no) instance. -/
theorem unspecifiedResetValuesAreUnobservable : Obligations.UnspecifiedResetValuesAreUnobservable :=
  fun cs _ _ hs hs' ht ht' =>
    runCommands_sameInstance cs (sameInstance_of_dead hs ht) (cacheOk_of_empty hs') (cacheOk_of_empty ht')

end Sys2Proof.Machine

namespace Sys2Proof.Machine

open Sys2Proof.Safety

/-! ### Commands that complete and commands that err (R87, R88) -/

/-- A command errs and changes the code only, or it runs the instruction it decodes to and completes. -/
theorem runCommand_raises_or_completes {c : Command} {s t : State} (h : runCommand c s = .next t) :
    (∃ code, t = raiseErr code s) ∨ ∃ i, decode c = .instr i ∧ exec i s = .next t ∧ t.err = .ok := by
  obtain ⟨i, hi, hx⟩ | ⟨r, -, rfl⟩ := runCommand_cases h
  · obtain ⟨n, -, rfl⟩ | ⟨_, _, -, -, rfl⟩ | ⟨-, rfl, -⟩ | ⟨-, hbody⟩ := exec_cases hx
    · exact .inr ⟨i, hi, hx, rfl⟩
    · exact .inl ⟨_, rfl⟩
    · exact .inl ⟨_, rfl⟩
    · refine .inr ⟨i, hi, hx, ?_⟩
      obtain ⟨-, rfl⟩ | ⟨-, rfl⟩ | ⟨_, -, rfl⟩ | ⟨_, -, rfl⟩ := hbody <;> simp
  · exact .inl ⟨_, rfl⟩

/-- An instruction that completes is a construction, or one of the four bodies ran on an instance. -/
theorem exec_completes_cases {i : Instr} {s t : State} (h : exec i s = .next t) (hok : t.err = .ok) :
    (∃ n, (i = .new n ∨ i = .newVar 16 n) ∧ t = construct n s) ∨
    (s.ivalid = true ∧
      ((i = .currentBlock ∧ t = currentBlockWith Config.encryptBlock s) ∨
       (i = .advanceBlock ∧ t = advanceOneBlock s) ∨
       (∃ o, i = .seek o ∧ t = seekTo o s) ∨
       ∃ d, i = .applyByte d ∧ t = applyByteWith Config.encryptBlock d s)) := by
  obtain hnew | ⟨_, _, -, -, rfl⟩ | ⟨-, rfl, -⟩ | hlive := exec_cases h
  · exact .inl hnew
  · cases hok
  · cases hok
  · exact .inr hlive

theorem exec_completes_ivalid {i : Instr} {s t : State} (h : exec i s = .next t) (hok : t.err = .ok) :
    t.ivalid = true := by
  obtain ⟨n, -, rfl⟩ | ⟨hv, hbody⟩ := exec_completes_cases h hok
  · rfl
  · obtain ⟨-, rfl⟩ | ⟨-, rfl⟩ | ⟨_, -, rfl⟩ | ⟨_, -, rfl⟩ := hbody <;> simp [hv]

theorem exec_inputs {i : Instr} {s t : State} (h : exec i s = .next t) : t.inputs = s.inputs := by
  obtain ⟨f, he, hf⟩ := exec_effect i s.ivalid
  cases (hf s rfl).symm.trans h
  exact he.inputs s

/-- No command clears `IVALID` (R19). -/
theorem runCommand_keeps_ivalid {c : Command} {s t : State} (h : runCommand c s = .next t) (hs : s.ivalid = true) :
    t.ivalid = true := by
  obtain ⟨code, rfl⟩ | ⟨i, -, hx, hok⟩ := runCommand_raises_or_completes h
  · exact hs
  · exact exec_completes_ivalid hx hok

/-- Settles O23, case by case along the rows of the matrix. -/
theorem commandsWriteOnlyWhatTheMatrixMarks : Obligations.CommandsWriteOnlyWhatTheMatrixMarks := by
  intro i s t h hok
  refine ⟨exec_inputs h, exec_completes_ivalid h hok, ?_⟩
  obtain ⟨n, rfl | rfl, rfl⟩ | ⟨hv, ⟨rfl, rfl⟩ | ⟨rfl, rfl⟩ | ⟨o, rfl, rfl⟩ | ⟨d, rfl, rfl⟩⟩ :=
    exec_completes_cases h hok
  · exact ⟨rfl, rfl, rfl, rfl, rfl, rfl⟩
  · exact ⟨rfl, rfl, rfl, rfl, rfl, rfl, rfl⟩
  · simp +contextual [hv]
  · simp [hv]
  · simp [hv]
  · simp +contextual [hv]

/-- Settles O26: the one command that completes without an instance is a construction, no command clears `IVALID`, and
the instance check of the other four raises `NO_INSTANCE`. -/
theorem onlyConstructionSetsAndOnlyResetClearsIvalid : Obligations.OnlyConstructionSetsAndOnlyResetClearsIvalid := by
  refine ⟨fun s t hst hs ht => ?_, fun s t hst hs ht => ?_, fun s c i hi hs hnew hvar => ?_⟩
  · obtain ⟨-, rfl⟩ | ⟨c, rest, hin, hc⟩ | ⟨rest, -, rfl⟩ := step_cases hst
    · simp [hs] at ht
    · refine ⟨c, rest, hin, ?_⟩
      obtain ⟨code, rfl⟩ | ⟨i, hi, hx, hok⟩ := runCommand_raises_or_completes hc
      · simp [hs] at ht
      · obtain ⟨n, rfl | rfl, -⟩ | ⟨hv, -⟩ := exec_completes_cases hx hok
        · exact ⟨hok, .inl ⟨n, hi⟩⟩
        · exact ⟨hok, .inr ⟨n, hi⟩⟩
        · simp [hs] at hv
    · simp at ht
  · obtain ⟨-, rfl⟩ | ⟨c, rest, -, hc⟩ | ⟨rest, hin, -⟩ := step_cases hst
    · simp [hs] at ht
    · simp [runCommand_keeps_ivalid hc hs] at ht
    · exact ⟨rest, hin⟩
  · rw [runCommand_instr hi]
    cases i with
    | new n => exact absurd rfl (hnew n)
    | newVar l n => exact absurd rfl (hvar l n)
    | currentBlock | advanceBlock | seek _ | applyByte _ => exact ⟨_, requireInstance_dead hs, rfl⟩

/-- Settles O27: an erring command changes no register, and of those that complete only a construction writes `NONCE`
and all but `CURRENT_BLOCK` write the cursor. -/
theorem nonceAndCursorChangeOnlyAtTheirCommands : Obligations.NonceAndCursorChangeOnlyAtTheirCommands := by
  refine ⟨fun c s t h hne => ?_, fun c s t h hne => ?_, fun n s₁ s₂ => ?_⟩
  · obtain ⟨code, rfl⟩ | ⟨i, hi, hx, hok⟩ := runCommand_raises_or_completes h
    · simp at hne
    · refine ⟨hok, ?_⟩
      obtain ⟨n, rfl | rfl, rfl⟩ | ⟨-, ⟨-, rfl⟩ | ⟨-, rfl⟩ | ⟨_, -, rfl⟩ | ⟨_, -, rfl⟩⟩ := exec_completes_cases hx hok
      · exact .inl ⟨n, hi⟩
      · exact .inr ⟨16, n, hi⟩
      all_goals simp at hne
  · obtain ⟨code, rfl⟩ | ⟨i, hi, hx, hok⟩ := runCommand_raises_or_completes h
    · simp at hne
    · refine ⟨hok, ?_⟩
      obtain ⟨n, rfl | rfl, -⟩ | ⟨-, ⟨-, rfl⟩ | ⟨rfl, -⟩ | ⟨o, rfl, -⟩ | ⟨d, rfl, -⟩⟩ := exec_completes_cases hx hok
      · exact .inl ⟨n, hi⟩
      · exact .inr (.inl ⟨16, n, hi⟩)
      · simp at hne
      · exact .inr (.inr (.inr (.inl hi)))
      · exact .inr (.inr (.inl ⟨o, hi⟩))
      · exact .inr (.inr (.inr (.inr ⟨d, hi⟩)))
  · exact ⟨construct n s₁, construct n s₂, exec_new n s₁, exec_new n s₂, exec_newVar_16 n s₁, rfl, rfl, rfl, rfl, rfl⟩

/-! ### `STATUS` (R20, R24) -/

/-- An instance and no error read 4. -/
theorem status_of_live_ok {s : State} (hiv : s.ivalid = true) (herr : s.err = .ok) : s.status = 4 := by
  rw [State.status, hiv, herr]; rfl

/-- No instance and no error read 0. -/
theorem status_of_dead_ok {s : State} (hiv : s.ivalid = false) (herr : s.err = .ok) : s.status = 0 := by
  rw [State.status, hiv, herr]; rfl

/-- Settles O28: the operation a command runs is decided by `IVALID`, and the code it writes by the operation. -/
theorem counterWrapLeavesNoTraceInStatus : Obligations.CounterWrapLeavesNoTraceInStatus := by
  refine ⟨fun c s₁ s₂ t₁ t₂ hiv h₁ h₂ => ?_, fun c s t hs h hok => ?_, fun s hs hctr => ?_⟩
  · obtain ⟨f, he, hf⟩ := runCommand_effect c s₁.ivalid
    cases (hf s₁ rfl).symm.trans h₁
    cases (hf s₂ hiv.symm).symm.trans h₂
    exact status_congr (he.ivalid_eq hiv) (he.err_eq s₁ s₂)
  · exact status_of_live_ok (runCommand_keeps_ivalid h hs) hok
  · refine ⟨_, exec_advanceBlock hs, ?_, status_of_live_ok hs rfl⟩
    rw [advanceOneBlock_ctr, hctr]
    decide

/-- Settles O24, for each outcome with and without an instance. -/
theorem statusHoldsTheCodeAndTheInstanceBit : Obligations.StatusHoldsTheCodeAndTheInstanceBit := by
  refine ⟨fun s => ?_, rfl, rfl, rfl, rfl⟩
  unfold State.status
  cases s.ivalid <;> cases s.err <;> decide

/-- Settles O10, from what a reset writes. -/
theorem resetLeavesNoInstance : Obligations.ResetLeavesNoInstance := by
  refine ⟨⟨rfl, rfl, status_of_dead_ok rfl rfl, rfl⟩, fun s rest hin => ?_⟩
  exact ⟨takeReset { s with inputs := rest }, step_input hin, rfl, rfl, status_of_dead_ok rfl rfl, rfl, rfl⟩

end Sys2Proof.Machine

namespace Sys2Proof.Machine

/-! ### The cursor (R16, R17) -/

/-- The cursor in integer form; the sum fits in 132 bits. -/
theorem toNat_cursor (s : State) : s.cursor.toNat = s.blkIdx.toNat * 16 + s.bpos.toNat := by
  have hblk := s.blkIdx.isLt
  have hpos := s.bpos.isLt
  rw [State.cursor]
  bv_omega

/-- `CTR` is the nonce plus the block index (R16). -/
theorem ctr_eq_nonce_add_blkIdx (s : State) : s.ctr = s.nonce + s.blkIdx := by
  rw [State.blkIdx, BitVec.add_comm, BitVec.sub_add_cancel]

theorem cursor_div_16 (s : State) : s.cursor.toNat / 16 = s.blkIdx.toNat := by
  have hpos := s.bpos.isLt
  rw [toNat_cursor]
  omega

theorem cursor_mod_16 (s : State) : s.cursor.toNat % 16 = s.bpos.toNat := by
  have hpos := s.bpos.isLt
  rw [toNat_cursor]
  omega

/-- Settles O34: dividing the cursor by 16 gives back the block index and `BPOS`. -/
theorem counterAndPositionAreTheCursorSplit : Obligations.CounterAndPositionAreTheCursorSplit := by
  refine fun s => ⟨?_, (cursor_mod_16 s).symm⟩
  rw [cursor_div_16, BitVec.ofNat_add, BitVec.ofNat_toNat, BitVec.ofNat_toNat, BitVec.setWidth_eq, BitVec.setWidth_eq]
  exact ctr_eq_nonce_add_blkIdx s

theorem ctr_eq_nonce_of_cursor_eq_zero {s : State} (h : s.cursor = 0) : s.ctr = s.nonce := by
  obtain ⟨hctr, -⟩ := counterAndPositionAreTheCursorSplit s
  simpa [h] using hctr

theorem blkIdx_of_inc {s t : State} (hnonce : t.nonce = s.nonce) (hctr : t.ctr = inc s.ctr) :
    t.blkIdx = s.blkIdx + 1 := by
  rw [State.blkIdx, State.blkIdx, hnonce, hctr, inc]
  exact add_sub_right_comm _ _ _

theorem advanceOneBlock_cursor (s : State) : (advanceOneBlock s).cursor = s.cursor + 16 := by
  have hblk : (advanceOneBlock s).blkIdx = s.blkIdx + 1 := blkIdx_of_inc rfl rfl
  have hpos : (advanceOneBlock s).bpos = s.bpos := rfl
  rw [State.cursor, State.cursor, hblk, hpos]
  bv_omega

/-- One byte on, inside the block or from byte 15 to byte 0 of the next block (R75, R81). -/
theorem applyByteWith_cursor (B : Backend) (din : Byte) (s : State) :
    (applyByteWith B din s).cursor = s.cursor + 1 := by
  by_cases hlast : s.bpos = 15
  · have hblk : (applyByteWith B din s).blkIdx = s.blkIdx + 1 := blkIdx_of_inc (by simp) (by simp [hlast])
    have hpos : (applyByteWith B din s).bpos = 0 := by simp [hlast]
    rw [State.cursor, State.cursor, hblk, hpos, hlast]
    bv_omega
  · have hblk : (applyByteWith B din s).blkIdx = s.blkIdx := by
      rw [State.blkIdx, State.blkIdx, applyByteWith_nonce, applyByteWith_ctr, if_neg hlast]
    have hpos : (applyByteWith B din s).bpos = s.bpos + 1 := by simp
    rw [State.cursor, State.cursor, hblk, hpos]
    bv_omega

/-- Settles O35: the moves by 16 and by 1, and the wrap as the move by 1 from `2^132 - 1`. -/
theorem advancingMovesTheCursorModulo2Pow132 : Obligations.AdvancingMovesTheCursorModulo2Pow132 := by
  refine fun s hs => ⟨⟨_, exec_advanceBlock hs, advanceOneBlock_cursor s, rfl, rfl⟩, fun din => ?_, fun hc din => ?_⟩
  · exact ⟨_, exec_applyByte hs din, applyByteWith_cursor _ din s, by simp, by simp⟩
  · have hzero : (applyByteWith Config.encryptBlock din s).cursor = 0 := by
      rw [applyByteWith_cursor, hc]; decide
    exact ⟨_, exec_applyByte hs din, hzero, ctr_eq_nonce_of_cursor_eq_zero hzero, by simp, by simp⟩

end Sys2Proof.Machine

namespace Sys2Proof.Machine

/-! ### Commands in issue order (R39) -/

/-- No operation reads the inputs to come, and each leaves them as they are. -/
theorem InputEffect.withInputs {live : Bool} {f : State → State} (he : InputEffect live f) (s : State)
    (xs : List Input) : f { s with inputs := xs } = { f s with inputs := xs } := by
  cases he with
  | construct _ | raise _ _ | advanceBlock _ | seek _ _ | reset => rfl
  | currentBlock _ | applyByte _ _ => ext1 <;> simp

/-- A command leads to the same state whatever inputs are still to come, up to these inputs. -/
theorem runCommand_withInputs (c : Command) (s : State) :
    ∃ t : State, ∀ xs, runCommand c { s with inputs := xs } = .next { t with inputs := xs } := by
  obtain ⟨f, he, hf⟩ := runCommand_effect c s.ivalid
  exact ⟨f s, fun xs => he.withInputs s xs ▸ hf { s with inputs := xs } rfl⟩

/-- Settles O12, by induction on the commands: the first step takes the first command off the list, and what it leads to
does not depend on the commands still on it. -/
theorem steppingRunsCommandsInIssueOrder : Obligations.SteppingRunsCommandsInIssueOrder := by
  intro cs rest
  induction cs with
  | nil => exact fun s => ⟨[], { s with inputs := rest }, rfl, rfl, rfl, rfl⟩
  | cons c cs ih =>
    intro s
    obtain ⟨s', hs'⟩ := runCommand_withInputs c s
    obtain ⟨rs, t, hrun, hlen, hin, hcore⟩ := ih s'
    refine ⟨_, t, runCommands_cons (hs' rest) hrun, congrArg (· + 1) hlen, hin, ?_⟩
    have hstep : step { s with inputs := (c :: cs).map Input.command ++ rest }
        = .next { s' with inputs := cs.map Input.command ++ rest } :=
      (step_command rfl).trans (hs' _)
    exact (core_run_next hstep cs.length).trans hcore

/-! ### Idempotent commands (R38) -/

/-- Twice leaves the state of once, up to the model's own counter of free values. -/
def Idempotent (f : State → State) : Prop := ∀ s, f (f s) = { f s with freeIdx := (f (f s)).freeIdx }

theorem idempotent_construct (nonce : Block) : Idempotent (construct nonce) := fun _ => rfl

theorem idempotent_seekTo (offset : Block) : Idempotent (seekTo offset) := fun _ => rfl

theorem idempotent_raiseErr (code : ErrCode) : Idempotent (raiseErr code) := fun _ => rfl

/-- The first time leaves the cache filled, so the second time drives the same block on `RESULT`. -/
theorem idempotent_currentBlockWith (B : Backend) : Idempotent (currentBlockWith B) := by
  intro s
  ext1 <;> simp

/-- The instance check answers alike both times, because neither the body nor the error changes `IVALID`. -/
theorem requireInstance_idempotent {body : State → State} (hbody : Idempotent body)
    (hiv : ∀ s, (body s).ivalid = s.ivalid) {s t u : State} (ht : requireInstance body s = .next t)
    (hu : requireInstance body t = .next u) : u = { t with freeIdx := u.freeIdx } := by
  obtain ⟨hs, rfl⟩ | ⟨hs, rfl⟩ := requireInstance_cases ht
  · cases (requireInstance_live ((hiv s).trans hs)).symm.trans hu
    exact hbody s
  · cases (requireInstance_dead (s := raiseErr .noInstance s) hs).symm.trans hu
    exact idempotent_raiseErr .noInstance s

/-- Settles O29: the effects of the three commands are idempotent, and the two others move the cursor by 16 and by 1,
neither of which is 0 modulo `2^132`. -/
theorem seekCurrentBlockAndNewAreIdempotent : Obligations.SeekCurrentBlockAndNewAreIdempotent := by
  constructor
  · rintro i s t u (⟨o, rfl⟩ | rfl | ⟨n, rfl⟩) ht hu
    · exact requireInstance_idempotent (idempotent_seekTo o) (seekTo_ivalid o) ht hu
    · exact requireInstance_idempotent (idempotent_currentBlockWith _) (currentBlockWith_ivalid _) ht hu
    · cases ht
      cases hu
      exact idempotent_construct n s
  · rintro i s hs (rfl | ⟨d, rfl⟩)
    · refine ⟨_, exec_advanceBlock hs, ?_⟩
      rw [advanceOneBlock_cursor]
      simp
    · refine ⟨_, exec_applyByte hs d, ?_⟩
      rw [applyByteWith_cursor]
      simp

end Sys2Proof.Machine

namespace Sys2Proof

/-! ### The fields of a command word (R45) -/

@[simp] theorem opc_commandWord (opc : BitVec 4) (arg8 : Byte) (o : Block) :
    Command.opc ⟨commandWord opc arg8, o⟩ = opc := by
  simp (disch := decide) only [Command.opc, commandWord, BitVec.extractLsb'_append_eq_of_le]
  exact BitVec.extractLsb'_eq_self

@[simp] theorem rsv_commandWord (opc : BitVec 4) (arg8 : Byte) (o : Block) :
    Command.rsv ⟨commandWord opc arg8, o⟩ = 0 := by
  simp (disch := decide) only [Command.rsv, commandWord, BitVec.extractLsb'_append_eq_of_add_le,
    BitVec.extractLsb'_append_eq_of_le]
  exact BitVec.extractLsb'_eq_self

@[simp] theorem arg8_commandWord (opc : BitVec 4) (arg8 : Byte) (o : Block) :
    Command.arg8 ⟨commandWord opc arg8, o⟩ = arg8 := by
  simp (disch := decide) only [Command.arg8, commandWord, BitVec.extractLsb'_append_eq_of_add_le]
  exact BitVec.extractLsb'_eq_self

/-- With `RSV` zero, the word is the one that its other two fields make up. -/
theorem commandWord_eq_cmd {c : Command} {opc : BitVec 4} {arg8 : Byte} (hrsv : c.rsv = 0) (hopc : c.opc = opc)
    (harg : c.arg8 = arg8) : commandWord opc arg8 = c.cmd := by
  have hlow : c.rsv ++ c.arg8 = c.cmd.extractLsb' 0 28 :=
    BitVec.extractLsb'_append_extractLsb'_eq_extractLsb' (by rfl)
  have hword : c.opc ++ c.cmd.extractLsb' 0 28 = c.cmd.extractLsb' 0 32 :=
    BitVec.extractLsb'_append_extractLsb'_eq_extractLsb' (by rfl)
  calc commandWord opc arg8
    _ = c.opc ++ (c.rsv ++ c.arg8) := by rw [hrsv, hopc, harg]; rfl
    _ = c.cmd := by rw [hlow, hword, BitVec.extractLsb'_eq_self]

/-! ### What the decoder answers, opcode by opcode (R47) -/

section
variable {c : Command}

theorem decode_opc1 (h : c.opc = 1) :
    decode c = if c.rsv ≠ 0 then .illegal .rsvNonZero else plainForm c.arg8 (.new c.opnd) := by
  rw [decode, h]; rfl

theorem decode_opc2 (h : c.opc = 2) :
    decode c = if c.rsv ≠ 0 then .illegal .rsvNonZero else .instr (.newVar c.arg8 c.opnd) := by
  rw [decode, h]; rfl

theorem decode_opc3 (h : c.opc = 3) :
    decode c = if c.rsv ≠ 0 then .illegal .rsvNonZero else plainForm c.arg8 .currentBlock := by
  rw [decode, h]; rfl

theorem decode_opc4 (h : c.opc = 4) :
    decode c = if c.rsv ≠ 0 then .illegal .rsvNonZero else plainForm c.arg8 .advanceBlock := by
  rw [decode, h]; rfl

theorem decode_opc5 (h : c.opc = 5) :
    decode c = if c.rsv ≠ 0 then .illegal .rsvNonZero else plainForm c.arg8 (.seek c.opnd) := by
  rw [decode, h]; rfl

theorem decode_opc6 (h : c.opc = 6) :
    decode c = if c.rsv ≠ 0 then .illegal .rsvNonZero else .instr (.applyByte c.arg8) := by
  rw [decode, h]; rfl

end

/-- Settles O2, row by row of the opcode map: the decoder reads back the fields the encoder wrote. -/
theorem decodingAnEncodedInstructionGivesItBack : Obligations.DecodingAnEncodedInstructionGivesItBack := by
  intro i
  cases i with
  | new nonce => simp [encode, decode_opc1, plainForm]
  | newVar len opnd => simp [encode, decode_opc2]
  | currentBlock => simp [encode, decode_opc3, plainForm]
  | advanceBlock => simp [encode, decode_opc4, plainForm]
  | seek offset => simp [encode, decode_opc5, plainForm]
  | applyByte din => simp [encode, decode_opc6]

/-! ### Everything the decoder can answer (R51, R52) -/

/-- The answer to a command, with what its fields then hold: one of the three items of R51, or a row of the opcode map. -/
inductive DecodeRow (c : Command) : Decoded → Prop
  | rsvNonZero (hrsv : c.rsv ≠ 0) : DecodeRow c (.illegal .rsvNonZero)
  | reservedOpcode (hopc : c.opc = 0 ∨ 7 ≤ c.opc.toNat) : DecodeRow c (.illegal .reservedOpcode)
  | arg8NonZero (hopc : c.opc.toNat ∈ [1, 3, 4, 5]) (harg : c.arg8 ≠ 0) : DecodeRow c (.illegal .arg8NonZero)
  | new (hrsv : c.rsv = 0) (hopc : c.opc = 1) (harg : c.arg8 = 0) : DecodeRow c (.instr (.new c.opnd))
  | newVar (hrsv : c.rsv = 0) (hopc : c.opc = 2) : DecodeRow c (.instr (.newVar c.arg8 c.opnd))
  | currentBlock (hrsv : c.rsv = 0) (hopc : c.opc = 3) (harg : c.arg8 = 0) : DecodeRow c (.instr .currentBlock)
  | advanceBlock (hrsv : c.rsv = 0) (hopc : c.opc = 4) (harg : c.arg8 = 0) : DecodeRow c (.instr .advanceBlock)
  | seek (hrsv : c.rsv = 0) (hopc : c.opc = 5) (harg : c.arg8 = 0) : DecodeRow c (.instr (.seek c.opnd))
  | applyByte (hrsv : c.rsv = 0) (hopc : c.opc = 6) : DecodeRow c (.instr (.applyByte c.arg8))

theorem decodeRow_plainForm {c : Command} {i : Instr} (hopc : c.opc.toNat ∈ [1, 3, 4, 5])
    (hrow : c.arg8 = 0 → DecodeRow c (.instr i)) : DecodeRow c (plainForm c.arg8 i) := by
  unfold plainForm
  split
  · next harg => exact hrow harg
  · next harg => exact .arg8NonZero hopc harg

theorem decodeRow_decode (c : Command) : DecodeRow c (decode c) := by
  unfold decode
  split
  · next hrsv => exact .rsvNonZero hrsv
  · next hrsv =>
    have hrsv : c.rsv = 0 := not_not.mp hrsv
    split
    · next hopc => exact decodeRow_plainForm (by simp [hopc]) (.new hrsv (BitVec.eq_of_toNat_eq hopc))
    · next hopc => exact .newVar hrsv (BitVec.eq_of_toNat_eq hopc)
    · next hopc => exact decodeRow_plainForm (by simp [hopc]) (.currentBlock hrsv (BitVec.eq_of_toNat_eq hopc))
    · next hopc => exact decodeRow_plainForm (by simp [hopc]) (.advanceBlock hrsv (BitVec.eq_of_toNat_eq hopc))
    · next hopc => exact decodeRow_plainForm (by simp [hopc]) (.seek hrsv (BitVec.eq_of_toNat_eq hopc))
    · next hopc => exact .applyByte hrsv (BitVec.eq_of_toNat_eq hopc)
    · next h1 h2 h3 h4 h5 h6 =>
      simp only [imp_false] at h1 h2 h3 h4 h5 h6
      exact .reservedOpcode (by bv_omega)

theorem decodeRow_of_eq {c : Command} {d : Decoded} (h : decode c = d) : DecodeRow c d := h ▸ decodeRow_decode c

/-- Settles O3: the fields of each row are those the encoder writes. -/
theorem legalCommandsAreTheEncodingsOfTheirMeaning : Obligations.LegalCommandsAreTheEncodingsOfTheirMeaning := by
  intro c i hi
  cases decodeRow_of_eq hi with
  | new hrsv hopc harg | seek hrsv hopc harg => exact ⟨commandWord_eq_cmd hrsv hopc harg, rfl⟩
  | newVar hrsv hopc => exact ⟨commandWord_eq_cmd hrsv hopc rfl, rfl⟩
  | currentBlock hrsv hopc harg | advanceBlock hrsv hopc harg => exact ⟨commandWord_eq_cmd hrsv hopc harg, trivial⟩
  | applyByte hrsv hopc => exact ⟨commandWord_eq_cmd hrsv hopc rfl, trivial⟩

/-- Each row of the opcode map excludes the three items of R51. -/
theorem DecodeRow.legal {c : Command} {i : Instr} (h : DecodeRow c (.instr i)) :
    ¬(c.opc = 0 ∨ 7 ≤ c.opc.toNat) ∧ c.rsv = 0 ∧ ¬(c.arg8 ≠ 0 ∧ c.opc.toNat ∈ [1, 3, 4, 5]) := by
  cases h with
  | new hrsv hopc harg | currentBlock hrsv hopc harg | advanceBlock hrsv hopc harg | seek hrsv hopc harg =>
    simp [hrsv, hopc, harg]
  | newVar hrsv hopc | applyByte hrsv hopc => simp [hrsv, hopc]

theorem decode_illegal_iff (c : Command) :
    (∃ r, decode c = .illegal r) ↔
      (c.opc = 0 ∨ 7 ≤ c.opc.toNat) ∨ c.rsv ≠ 0 ∨ (c.arg8 ≠ 0 ∧ c.opc.toNat ∈ [1, 3, 4, 5]) := by
  constructor
  · rintro ⟨r, hr⟩
    cases decodeRow_of_eq hr with
    | rsvNonZero hrsv => exact .inr (.inl hrsv)
    | reservedOpcode hopc => exact .inl hopc
    | arg8NonZero hopc harg => exact .inr (.inr ⟨harg, hopc⟩)
  · intro hitem
    cases hd : decode c with
    | illegal r => exact ⟨r, rfl⟩
    | instr i =>
      obtain ⟨hopc, hrsv, harg⟩ := (decodeRow_of_eq hd).legal
      exact absurd hitem (not_or.mpr ⟨hopc, not_or.mpr ⟨not_not.mpr hrsv, harg⟩⟩)

end Sys2Proof

namespace Sys2Proof.Machine

/-- Settles O4: the fields of R45 are the ones the decoder reads, and a reported error writes only its code. -/
theorem illegalWordsAreTheThreeItemsAndRaiseIllegal : Obligations.IllegalWordsAreTheThreeItemsAndRaiseIllegal :=
  fun c => ⟨decode_illegal_iff c, fun _ ⟨_, hr⟩ => runCommand_illegal hr _⟩

/-! ### Ignored operands (R46) -/

theorem runCommand_congr {c₁ c₂ : Command} (h : decode c₁ = decode c₂) (s : State) :
    runCommand c₁ s = runCommand c₂ s := by
  rw [runCommand, runCommand, h]

/-- `NEW_VAR` with a length other than 16 reports an error whatever `OPND` is. -/
theorem runCommand_newVar_other {c : Command} (hopc : c.opc = 2) (hlen : c.arg8 ≠ 16) (s : State) :
    runCommand c s = .next (raiseErr (if c.rsv ≠ 0 then .illegal else .initError) s) := by
  have hd := decode_opc2 hopc
  split at hd
  · next hrsv => rw [runCommand_illegal hd, if_pos hrsv]
  · next hrsv => rw [runCommand_instr hd, exec_newVar_other hlen, if_neg hrsv]

/-- Settles O5: three commands decode alike under any operand, and the fourth reports the same error. -/
theorem ignoredOperandsHaveNoEffect : Obligations.IgnoredOperandsHaveNoEffect := by
  rintro w o₁ o₂ s (h | h | h | ⟨h, hlen⟩)
  · exact runCommand_congr ((decode_opc3 (c := ⟨w, o₁⟩) h).trans (decode_opc3 (c := ⟨w, o₂⟩) h).symm) s
  · exact runCommand_congr ((decode_opc4 (c := ⟨w, o₁⟩) h).trans (decode_opc4 (c := ⟨w, o₂⟩) h).symm) s
  · exact runCommand_congr ((decode_opc6 (c := ⟨w, o₁⟩) h).trans (decode_opc6 (c := ⟨w, o₂⟩) h).symm) s
  · exact (runCommand_newVar_other (c := ⟨w, o₁⟩) h hlen s).trans
      (runCommand_newVar_other (c := ⟨w, o₂⟩) h hlen s).symm

/-! ### The applier over a buffer, and `rewind` (R55, R56) -/

/-- The command that encodes an instruction runs it. -/
theorem runCommand_encode (i : Instr) (s : State) : runCommand (encode i) s = exec i s :=
  runCommand_instr (decodingAnEncodedInstructionGivesItBack i) s

theorem applyBuffer_of_runCommands {bytes : List Byte} {s t : State} {rs : List Response}
    (h : runCommands (applyExpansion bytes) s = .next (rs, t)) :
    applyBuffer bytes s = .next (rs.map Response.byte, t) := by
  rw [applyBuffer, h]

/-- `apply` over any buffer keeps the instance and its nonce (R26). -/
theorem runCommands_applyExpansion_keeps_nonce (bytes : List Byte) {s : State} (hs : s.ivalid = true) :
    ∃ rs t, runCommands (applyExpansion bytes) s = .next (rs, t) ∧ t.nonce = s.nonce ∧ t.ivalid = true := by
  induction bytes generalizing s with
  | nil => exact ⟨[], s, rfl, rfl, hs⟩
  | cons b bytes ih =>
    have hb : runCommand (encode (.applyByte b)) s = .next (applyByteWith Config.encryptBlock b s) :=
      (runCommand_encode _ s).trans (exec_applyByte hs b)
    obtain ⟨rs, t, hrun, hnonce, hiv⟩ := ih (s := applyByteWith Config.encryptBlock b s) (by simpa using hs)
    exact ⟨_, t, runCommands_cons hb hrun, by simpa using hnonce, hiv⟩

theorem runCommands_rewindExpansion {s : State} (hs : s.ivalid = true) :
    runCommands rewindExpansion s = .next ([(seekTo 0 s).response], seekTo 0 s) :=
  runCommands_cons ((runCommand_encode _ s).trans (exec_seek hs 0)) rfl

/-- `SEEK 0` goes back to the nonce (R61, R67). -/
theorem seekTo_zero_ctr (s : State) : (seekTo 0 s).ctr = s.nonce := by
  simp [blockCounter, seekBlk]

/-- Settles O53: the buffer leaves the nonce, and `rewind` is a seek to the first byte of the stream. -/
theorem rewindRestoresTheOriginalAlignment : Obligations.RewindRestoresTheOriginalAlignment := by
  intro bytes s hs
  obtain ⟨rs, t, hrun, hnonce, hiv⟩ := runCommands_applyExpansion_keeps_nonce bytes hs
  refine ⟨_, t, _, seekTo 0 t, applyBuffer_of_runCommands hrun, runCommands_rewindExpansion hiv, ?_, rfl, hnonce,
    status_of_live_ok hiv rfl⟩
  rw [seekTo_zero_ctr, hnonce]

/-! ### Commands from text (R54 to R58) -/

/-- A command word as the opcode's word with `ARG8` in its low byte, as R58 writes it. -/
theorem commandWord_eq_or (opc : BitVec 4) (arg8 : Byte) :
    commandWord opc arg8 = commandWord opc 0 ||| arg8.setWidth 32 := by
  have hlow : arg8.setWidth 32 = commandWord 0 arg8 := by
    apply BitVec.eq_of_toNat_eq
    simp only [commandWord, toNat_append_eq_add]
    bv_omega
  rw [hlow, commandWord, commandWord, commandWord, BitVec.or_append, BitVec.or_append]
  simp

/-- Settles O6, from the word of each command. -/
theorem pseudoInstructionsExpandToTheirCommands : Obligations.PseudoInstructionsExpandToTheirCommands := by
  refine ⟨fun bytes => List.map_congr_left fun b _ => ?_, rfl, fun _ => rfl⟩
  rw [encode, commandWord_eq_or]
  rfl

theorem assemble_of_wellFormed {a : AsmStmt} (h : a.wellFormed = true) : assemble a = some (expandStmt a) := if_pos h

theorem assemble_of_not_wellFormed {a : AsmStmt} (h : a.wellFormed = false) : assemble a = none :=
  if_neg (by simp [h])

/-- The word of a numbered 8-bit operand. -/
theorem commandWord_ofNat (opc : BitVec 4) {n : Nat} (h : n < 256) :
    commandWord opc (BitVec.ofNat 8 n) = commandWord opc 0 ||| BitVec.ofNat 32 n := by
  rw [commandWord_eq_or, BitVec.setWidth_ofNat_of_le_of_lt (by decide) h]

/-- Settles O7: operands in range give a well-formed statement, and one out of range an ill-formed one. -/
theorem statementsAssembleToTheSyntaxTable : Obligations.StatementsAssembleToTheSyntaxTable := by
  refine ⟨fun n hn => ?_, fun l n hl hn => ?_, rfl, rfl, fun n hn => ?_, fun d hd => ?_, fun n hn => ?_, fun d hd => ?_⟩
  · exact assemble_of_wellFormed (decide_eq_true hn)
  · have hok : (AsmStmt.newVar l n).wellFormed = true :=
      Bool.and_eq_true_iff.mpr ⟨decide_eq_true hl, decide_eq_true hn⟩
    rw [assemble_of_wellFormed hok, expandStmt, encode, commandWord_ofNat 2 hl]
    rfl
  · exact assemble_of_wellFormed (decide_eq_true hn)
  · have hok : (AsmStmt.applyByte d).wellFormed = true := decide_eq_true hd
    rw [assemble_of_wellFormed hok, expandStmt, encode, commandWord_ofNat 6 hd]
    rfl
  · have hbad : AsmStmt.blockOk n = false := decide_eq_false (not_lt.mpr hn)
    refine ⟨assemble_of_not_wellFormed hbad, assemble_of_not_wellFormed hbad, fun l => assemble_of_not_wellFormed ?_⟩
    rw [AsmStmt.wellFormed, hbad, Bool.and_false]
  · have hbad : AsmStmt.byteOk d = false := decide_eq_false (not_lt.mpr hd)
    refine ⟨assemble_of_not_wellFormed hbad, fun n => assemble_of_not_wellFormed ?_⟩
    rw [AsmStmt.wellFormed, hbad, Bool.false_and]

/-- Settles O1: each text and each legal word by running the model, the two illegal words by the items of R51 (O4). -/
theorem workedEncodingsAreReadAsWritten : Obligations.WorkedEncodingsAreReadAsWritten := by
  refine ⟨by decide, by decide, by decide, by decide, by decide, by decide, by decide, fun o => ?_, fun o => ?_⟩
  · have hopc : 7 ≤ ((0x70000000 : Word).extractLsb' 28 4).toNat := by decide
    exact (decode_illegal_iff _).mpr (.inl (.inr hopc))
  · have hrsv : (0x10000100 : Word).extractLsb' 8 20 ≠ 0 := by decide
    exact (decode_illegal_iff _).mpr (.inr (.inl hrsv))

end Sys2Proof.Machine

namespace Sys2Proof.Machine

/-! ### The keystream block (R62) -/

/-- Settles O31: reading a block back as bytes undoes the backend's output being read as a block. -/
theorem keystreamBytesAreTheBackendsBytes : Obligations.KeystreamBytesAreTheBackendsBytes :=
  fun c => be16_fromBe16 (Config.encryptBlock (be16 c))

/-! ### The increment and its byte-array form (R60, R63) -/

/-- The increment in integer form (R60). -/
theorem inc_eq_ofNat (c : Block) : inc c = BitVec.ofNat 128 (c.toNat + 1) := by
  rw [inc, BitVec.ofNat_add, BitVec.ofNat_toNat, BitVec.setWidth_eq]
  rfl

theorem toNat_inc (c : Block) : (inc c).toNat = (c.toNat + 1) % 2 ^ 128 := by
  rw [inc_eq_ofNat, BitVec.toNat_ofNat]

/-- The value of bytes listed least significant first. -/
def bytesUpToNat (bs : List Byte) : Nat := Nat.ofDigits 256 (bs.map BitVec.toNat)

@[simp] theorem bytesUpToNat_nil : bytesUpToNat [] = 0 := rfl

@[simp] theorem bytesUpToNat_cons (b : Byte) (bs : List Byte) :
    bytesUpToNat (b :: bs) = b.toNat + 256 * bytesUpToNat bs := Nat.ofDigits_cons

theorem bytesUpToNat_append_singleton (bs : List Byte) (b : Byte) :
    bytesUpToNat (bs ++ [b]) = bytesUpToNat bs + 256 ^ bs.length * b.toNat := by
  simp [bytesUpToNat, Nat.ofDigits_append]

/-- Lists of equally many bytes with the same value are equal. -/
theorem eq_of_bytesUpToNat_eq {as bs : List Byte} (hlen : as.length = bs.length)
    (h : bytesUpToNat as = bytesUpToNat bs) : as = bs := by
  have hlt : ∀ cs : List Byte, ∀ d ∈ cs.map BitVec.toNat, d < 256 := by
    intro cs d hd
    obtain ⟨b, -, rfl⟩ := List.mem_map.mp hd
    exact b.isLt
  exact List.map_injective_iff.mpr BitVec.toNat_injective
    (Nat.ofDigits_inj_of_len_eq (by decide) (by simpa using hlen) (hlt as) (hlt bs) h)

theorem length_incBytesUp (bs : List Byte) (carry : Bool) : (incBytesUp bs carry).length = bs.length := by
  induction bs generalizing carry with
  | nil => rfl
  | cons b bs ih => simp [incBytesUp, ih]

/-- One byte: what goes up is kept in the byte and its carry out together. -/
theorem toNat_incByte (b : Byte) (carry : Bool) :
    (incByte b carry).1.toNat + 256 * (incByte b carry).2.toNat = b.toNat + carry.toNat := by
  have hlt := b.isLt
  cases carry with
  | false => simp [incByte]
  | true =>
    by_cases hb : b = 0xff
    · subst hb; decide
    · have hne : b.toNat ≠ 255 := fun h => hb (BitVec.eq_of_toNat_eq h)
      have hcarry : (incByte b true).2 = false := beq_eq_false_iff_ne.mpr hb
      have hbyte : (incByte b true).1.toNat = (b.toNat + 1) % 256 := by simp [incByte]
      rw [hcarry, hbyte, Bool.toNat_true, Bool.toNat_false]
      omega

/-- The byte-array form adds the carry, and the carry out of the last byte is dropped (R60). -/
theorem bytesUpToNat_incBytesUp (bs : List Byte) (carry : Bool) :
    bytesUpToNat (incBytesUp bs carry) = (bytesUpToNat bs + carry.toNat) % 256 ^ bs.length := by
  induction bs generalizing carry with
  | nil => simp [incBytesUp, Nat.mod_one]
  | cons b bs ih =>
    have hbyte := toNat_incByte b carry
    have hsum : b.toNat + 256 * bytesUpToNat bs + carry.toNat =
        (incByte b carry).1.toNat + 256 * (bytesUpToNat bs + (incByte b carry).2.toNat) := by omega
    rw [incBytesUp, bytesUpToNat_cons, bytesUpToNat_cons, ih, List.length_cons, Nat.pow_succ', hsum, Nat.mod_mul,
      Nat.add_mul_mod_self_left, Nat.mod_eq_of_lt (incByte b carry).1.isLt, Nat.add_mul_div_left _ _ (by decide),
      Nat.div_eq_of_lt (incByte b carry).1.isLt, zero_add]

/-- The value of bytes listed most significant first, as the weighted sum of R8. -/
theorem bytesUpToNat_reverse_ofFn {n : Nat} (f : Fin n → Byte) :
    bytesUpToNat (List.ofFn f).reverse = ∑ j : Fin n, (f j).toNat * 256 ^ (n - 1 - j.val) := by
  induction n with
  | zero => simp
  | succ n ih =>
    rw [List.ofFn_succ, List.reverse_cons, bytesUpToNat_append_singleton, ih, Fin.sum_univ_succ, add_comm]
    simp [Nat.sub_sub, Nat.add_comm 1, Nat.mul_comm]

theorem toList_eq_ofFn {n : Nat} (b : Vector Byte n) : b.toList = List.ofFn fun j : Fin n => b[j] := by
  rw [← Vector.toList_ofFn]
  simp

theorem bytesUpToNat_be16 (v : Block) : bytesUpToNat (be16 v).toList.reverse = v.toNat :=
  calc bytesUpToNat (be16 v).toList.reverse
    _ = ∑ j : Fin 16, (be16 v)[j].toNat * 256 ^ (15 - j.val) := by
      rw [toList_eq_ofFn, bytesUpToNat_reverse_ofFn]
    _ = v.toNat := by rw [← toNat_fromBe16, fromBe16_be16]

/-- Both sides, read from the last byte up, are 16 bytes with the value of the counter plus one. -/
theorem be16_inc (c : Block) : (be16 (inc c)).toList = incBytes (be16 c) := by
  apply List.reverse_injective
  rw [incBytes, List.reverse_reverse]
  apply eq_of_bytesUpToNat_eq
  · simp [length_incBytesUp]
  · rw [bytesUpToNat_incBytesUp, bytesUpToNat_be16, bytesUpToNat_be16, toNat_inc]
    simp

/-- Settles O32: off the wrap one more still fits, and the byte arrays have the same value. -/
theorem incrementIsTheByteArrayIncrement : Obligations.IncrementIsTheByteArrayIncrement := by
  refine ⟨by decide, fun c hc => ?_, be16_inc⟩
  have hne : c.toNat ≠ 2 ^ 128 - 1 := fun h => hc (BitVec.eq_of_toNat_eq h)
  have hlt := c.isLt
  rw [toNat_inc]
  omega

theorem toNat_lowHalf (c : Block) : (c.extractLsb' 0 64).toNat = c.toNat % 2 ^ 64 := by simp

theorem toNat_highHalf (c : Block) : (c.extractLsb' 64 64).toNat = c.toNat / 2 ^ 64 := by
  have hlt := c.isLt
  rw [BitVec.extractLsb'_toNat, Nat.shiftRight_eq_div_pow]
  omega

/-- The low half is all ones exactly when one more carries out of it. -/
theorem lowHalf_eq_allOnes_iff (c : Block) :
    c.extractLsb' 0 64 = BitVec.allOnes 64 ↔ c.toNat % 2 ^ 64 = 2 ^ 64 - 1 := by
  rw [← BitVec.toNat_inj, toNat_lowHalf, BitVec.toNat_allOnes]

/-- Settles O33 in integer form: the low half is the remainder by `2^64`, the high half the quotient. -/
theorem carryGoesIntoTheHighHalf : Obligations.CarryGoesIntoTheHighHalf := by
  refine fun c => ⟨?_, ?_⟩
  · apply BitVec.eq_of_toNat_eq
    rw [toNat_lowHalf, toNat_inc, BitVec.toNat_add, toNat_lowHalf]
    bv_omega
  · apply BitVec.eq_of_toNat_eq
    rw [toNat_highHalf, toNat_inc, BitVec.toNat_add, toNat_highHalf]
    split
    · next hwrap =>
      have hlow := (lowHalf_eq_allOnes_iff c).mp hwrap
      bv_omega
    · next hwrap =>
      have hlow := mt (lowHalf_eq_allOnes_iff c).mpr hwrap
      bv_omega

end Sys2Proof.Machine

namespace Sys2Proof.Machine

open Sys2Proof.Safety

/-! ### Each engine command on its own (R65 to R69) -/

/-- The counter starts at the nonce, so the block index is 0. -/
theorem construct_cursor (nonce : Block) (s : State) : (construct nonce s).cursor = 0 := by
  simp [State.cursor, State.blkIdx]

/-- Settles O13, from what construction writes. -/
theorem newConstructsAnInstance : Obligations.NewConstructsAnInstance :=
  fun nonce s => ⟨construct nonce s, exec_new nonce s, rfl, construct_cursor nonce s, status_of_live_ok rfl rfl⟩

/-- Settles O14, from the two answers of `NEW_VAR`. -/
theorem newVarConstructsForSixteenBytesOnly : Obligations.NewVarConstructsForSixteenBytesOnly :=
  ⟨fun opnd s => ⟨(exec_newVar_16 opnd s).trans (exec_new opnd s).symm, exec_newVar_16 opnd s⟩,
    fun _ opnd s hlen => exec_newVar_other hlen opnd s⟩

theorem toNat_seekBlk (offset : Block) : (seekBlk offset).toNat = offset.toNat / 16 := by
  have hlt := offset.isLt
  rw [seekBlk, BitVec.extractLsb'_toNat, Nat.shiftRight_eq_div_pow]
  omega

theorem toNat_seekPos (offset : Block) : (seekPos offset).toNat = offset.toNat % 16 := by
  simp [seekPos]

theorem seekPos_eq_ofNat (offset : Block) : seekPos offset = BitVec.ofNat 4 (offset.toNat % 16) := by
  rw [← toNat_seekPos, BitVec.ofNat_toNat, BitVec.setWidth_eq]

theorem blockCounter_seekBlk (nonce offset : Block) :
    blockCounter nonce (seekBlk offset) = BitVec.ofNat 128 (nonce.toNat + offset.toNat / 16) := by
  apply BitVec.eq_of_toNat_eq
  simp [blockCounter, toNat_seekBlk]

/-- Settles O15, from the two parts of the operand in integer form. -/
theorem seekSetsCounterAndPosition : Obligations.SeekSetsCounterAndPosition := by
  intro offset s hs
  rw [exec_seek hs, seekTo, blockCounter_seekBlk, seekPos_eq_ofNat, complete]

/-- Settles O16: field by field, and from the cached block where the cache's invariant holds. -/
theorem currentBlockReturnsTheKeystreamBlock : Obligations.CurrentBlockReturnsTheKeystreamBlock := by
  refine fun s hs => ⟨?_, fun hcache => ⟨_, exec_currentBlock hs, currentBlockWith_result_of_cacheOk hcache, ?_⟩⟩
  · rw [exec_currentBlock hs]
    congr 1
    ext1 <;> simp [keystream]
  · rw [currentBlockWith_ksbuf, cachedBlock_eq_keystream hcache]

/-- Settles O17, from the increment in integer form. -/
theorem advanceBlockIncrementsTheCounter : Obligations.AdvanceBlockIncrementsTheCounter := by
  intro s hs
  rw [exec_advanceBlock hs, ← inc_eq_ofNat]
  rfl

/-! ### What `SEEK` reaches (R72, R73) -/

/-- Settles O45: what `SEEK` writes is a function of the nonce and the operand, and it keeps the nonce. -/
theorem seekDeterminesTheState : Obligations.SeekDeterminesTheState := by
  intro n s₁ s₂ h₁ h₂ hnonce
  have hctr : (seekTo n s₁).ctr = (seekTo n s₂).ctr := by rw [seekTo_ctr, seekTo_ctr, hnonce]
  exact ⟨_, _, _, exec_seek h₁ n, exec_seek h₂ n, exec_seek (s := seekTo n s₁) h₁ n,
    ⟨hnonce, hctr, rfl, h₁.trans h₂.symm, status_congr (h₁.trans h₂.symm) rfl⟩, rfl, rfl, rfl, rfl, rfl⟩

/-- `SEEK` sets the cursor to its operand (R73). -/
theorem seekTo_cursor (offset : Block) (s : State) : (seekTo offset s).cursor = offset.setWidth 132 := by
  have hblk : (seekTo offset s).blkIdx = (seekBlk offset).setWidth 128 := by
    rw [State.blkIdx, seekTo_ctr, seekTo_nonce, blockCounter]
    exact add_sub_cancel_left _ _
  apply BitVec.eq_of_toNat_eq
  have hlt := offset.isLt
  rw [toNat_cursor, hblk, seekTo_bpos, toNat_seekPos, BitVec.toNat_setWidth, toNat_seekBlk, BitVec.toNat_setWidth]
  omega

/-- The nonce and the cursor determine the counter (R16). -/
theorem ctr_eq_of_cursor_eq {s t : State} (hnonce : s.nonce = t.nonce) (hcur : s.cursor = t.cursor) :
    s.ctr = t.ctr := by
  obtain ⟨hs, -⟩ := counterAndPositionAreTheCursorSplit s
  obtain ⟨ht, -⟩ := counterAndPositionAreTheCursorSplit t
  rw [hs, ht, hnonce, hcur]

theorem bpos_eq_of_cursor_eq {s t : State} (hcur : s.cursor = t.cursor) : s.bpos = t.bpos := by
  apply BitVec.eq_of_toNat_eq
  rw [← cursor_mod_16, ← cursor_mod_16, hcur]

/-- Settles O36: the cursors agree, and with the same nonce so do counter and position. -/
theorem seekReachesTheOffsetsBelow2Pow128 : Obligations.SeekReachesTheOffsetsBelow2Pow128 := by
  refine ⟨fun n s hs => ⟨_, exec_seek hs n, seekTo_cursor n s, ?_⟩, fun n s hs hn => ?_, fun s hs => ⟨?_, ?_⟩⟩
  · have hlt := n.isLt
    rw [seekTo_cursor]
    bv_omega
  · have hcur : (advanceOneBlock (seekTo n s)).cursor = (seekTo (n + 16) s).cursor := by
      rw [advanceOneBlock_cursor, seekTo_cursor, seekTo_cursor]
      bv_omega
    exact ⟨_, _, _, exec_seek hs n, exec_advanceBlock (s := seekTo n s) hs, exec_seek hs (n + 16),
      ctr_eq_of_cursor_eq rfl hcur, bpos_eq_of_cursor_eq hcur, hcur⟩
  · rw [← cursor_div_16]
    omega
  · exact ctr_eq_nonce_add_blkIdx s

/-- Settles O46: the same nonce and cursor are the same instance. -/
theorem instancesAtTheSameCursorAnswerAlike : Obligations.InstancesAtTheSameCursorAnswerAlike :=
  fun _ _ hs ht hsl htl hnonce hcur cs =>
    runCommands_sameInstance cs
      ⟨hsl.trans htl.symm, fun _ => hnonce, fun _ => ctr_eq_of_cursor_eq hnonce hcur,
        fun _ => bpos_eq_of_cursor_eq hcur⟩ hs ht

/-! ### Reached states (R70) -/

/-- A run that leads on took a first step, and goes on from where that led. -/
theorem step_of_core_run_next {n : Nat} {s t : State} (h : Sys2Proof.core.run (n + 1) s = .next t) :
    ∃ s', step s = .next s' ∧ Sys2Proof.core.run n s' = .next t := by
  cases hs : step s with
  | next s' => exact ⟨s', rfl, (core_run_next hs n).symm.trans h⟩
  | fault r => cases r
  | refused r => cases (core_run_refused hs n).symm.trans h

theorem inv_of_core_run {n : Nat} {s t : State} (h : Inv s) (hrun : Sys2Proof.core.run n s = .next t) : Inv t := by
  induction n generalizing s with
  | zero => cases hrun; exact h
  | succ n ih =>
    obtain ⟨s', hs', hrun'⟩ := step_of_core_run_next hrun
    exact ih (everyStepKeepsTheInvariant s s' h hs') hrun'

theorem inv_of_reached {s : State} (h : Reached s) : Inv s := by
  obtain ⟨xs, n, hrun⟩ := h
  exact inv_of_core_run (inv_withInputs invariantHoldsAtReset xs) hrun

/-- Settles O43: a reached state meets the cache's invariant, its counter is the cursor's block (O34), and
`CURRENT_BLOCK` is idempotent. -/
theorem currentBlockIsPureInNonceAndCursor : Obligations.CurrentBlockIsPureInNonceAndCursor := by
  intro s hreach hs
  have hcache : CacheOk s := (inv_of_reached hreach).cache
  obtain ⟨hctr, -⟩ := counterAndPositionAreTheCursorSplit s
  refine ⟨_, _, exec_currentBlock hs, exec_currentBlock (s := currentBlockWith _ s) (by simpa using hs), ?_, ?_⟩
  · rw [currentBlockWith_result_of_cacheOk hcache, ← hctr]
  · rw [idempotent_currentBlockWith]

/-! ### The counter goes on at 0 (R74) -/

/-- `k` times `ADVANCE_BLOCK`, then `CURRENT_BLOCK`. -/
theorem runCommands_advance_current (k : Nat) {s : State} (hs : s.ivalid = true) (hcache : CacheOk s) :
    ∃ rs t, runCommands (List.replicate k (encode .advanceBlock) ++ [encode .currentBlock]) s = .next (rs, t) ∧
      t.result = some (keystream (s.ctr + BitVec.ofNat 128 k)) ∧ t.err = .ok := by
  induction k generalizing s with
  | zero =>
    have hcur := (runCommand_encode .currentBlock s).trans (exec_currentBlock hs)
    refine ⟨_, _, runCommands_cons hcur rfl, ?_, by simp⟩
    rw [currentBlockWith_result_of_cacheOk hcache]
    simp
  | succ k ih =>
    have hadv := (runCommand_encode .advanceBlock s).trans (exec_advanceBlock hs)
    obtain ⟨rs, t, hrun, hresult, herr⟩ := ih (s := advanceOneBlock s) hs (cacheOk_of_empty rfl)
    refine ⟨_, t, runCommands_cons hadv hrun, ?_, herr⟩
    rw [hresult, advanceOneBlock_ctr, inc, BitVec.ofNat_add, BitVec.add_assoc, BitVec.add_comm 1]
    rfl

theorem runCommands_new_advance_current (N : Block) (k : Nat) (s : State) : ∃ rs t,
    runCommands (encode (.new N) :: (List.replicate k (encode .advanceBlock) ++ [encode .currentBlock])) s
      = .next (rs, t) ∧ t.result = some (keystream (N + BitVec.ofNat 128 k)) ∧ t.err = .ok := by
  have hnew := (runCommand_encode (.new N) s).trans (exec_new N s)
  obtain ⟨rs, t, hrun, hresult, herr⟩ :=
    runCommands_advance_current k (s := construct N s) rfl (cacheOk_of_empty rfl)
  exact ⟨_, t, runCommands_cons hnew hrun, hresult, herr⟩

/-- Settles O37: the general clause, and at `N = 2^128 - 2` the four sums. -/
theorem advancedBlocksAreConsecutiveModulo2Pow128 : Obligations.AdvancedBlocksAreConsecutiveModulo2Pow128 := by
  refine ⟨runCommands_new_advance_current, fun k s hk => ?_⟩
  obtain ⟨rs, t, hrun, hresult, -⟩ := runCommands_new_advance_current (BitVec.ofNat 128 (2 ^ 128 - 2)) k s
  have hctr : ∀ j < 4, BitVec.ofNat 128 (2 ^ 128 - 2) + BitVec.ofNat 128 j
      = [BitVec.ofNat 128 (2 ^ 128 - 2), BitVec.ofNat 128 (2 ^ 128 - 1), 0, 1].getD j 0 := by decide
  exact ⟨rs, t, hrun, by rw [hresult, hctr k hk]⟩

end Sys2Proof.Machine

namespace Sys2Proof.Machine

open Sys2Proof.Safety

/-! ### One byte on an instance (R75, R77) -/

theorem applyByteWith_cacheOk {s : State} (h : CacheOk s) (din : Byte) :
    CacheOk (applyByteWith Config.encryptBlock din s) :=
  InputEffect.cacheOk (.applyByte din (rfl : true = true)) h

/-- The whole effect of `APPLY_BYTE` where the cache meets its invariant, on either side of the block boundary. -/
theorem applyByteWith_of_cacheOk {s : State} (h : CacheOk s) (din : Byte) :
    applyByteWith Config.encryptBlock din s = { s with
      bpos := s.bpos + 1, ctr := if s.bpos = 15 then inc s.ctr else s.ctr, ksbuf := keystream s.ctr
      ksvalid := !decide (s.bpos = 15), err := .ok
      result := some ((din ^^^ lane s.bpos (keystream s.ctr)).setWidth 128), freeIdx := s.freeIdx + 1 } := by
  ext1
  case ksbuf => exact (applyByteWith_ksbuf ..).trans (cachedBlock_eq_keystream h)
  case result => exact applyByteWith_result_of_cacheOk h din
  all_goals simp

/-- Settles O18: the whole effect at each side of the block boundary; the two identities are those of XOR. -/
theorem applyByteXorsAndMovesTheCursor : Obligations.ApplyByteXorsAndMovesTheCursor := by
  intro din s hs hcache
  refine ⟨fun hpos => ?_, fun hpos => ?_, ⟨_, exec_applyByte hs _, ?_⟩, ⟨_, exec_applyByte hs _, ?_⟩⟩
  · rw [exec_applyByte hs, applyByteWith_of_cacheOk hcache, if_neg hpos, decide_eq_false hpos]
    rfl
  · rw [exec_applyByte hs, applyByteWith_of_cacheOk hcache, if_pos hpos, decide_eq_true hpos, hpos, inc_eq_ofNat]
    rfl
  · rw [applyByteWith_result_of_cacheOk hcache, zero_xor]
  · rw [applyByteWith_result_of_cacheOk hcache, BitVec.xor_self]
    rfl

/-- Settles O47: the first byte leaves an empty cache at byte 0 of the next block, so the second byte reads that block;
`BPOS` has four bits. -/
theorem blockCrossingUsesTheOldBlockThenTheNext : Obligations.BlockCrossingUsesTheOldBlockThenTheNext := by
  refine ⟨fun s => Nat.le_of_lt_succ s.bpos.isLt, fun s d₁ d₂ hs hcache hpos => ?_⟩
  have hlive : (applyByteWith Config.encryptBlock d₁ s).ivalid = true := by simpa using hs
  have hzero : (applyByteWith Config.encryptBlock d₁ s).bpos = 0 := by simp [hpos]
  have hnext : (applyByteWith Config.encryptBlock d₁ s).ctr = inc s.ctr := by simp [hpos]
  have hfirst := applyByteWith_result_of_cacheOk hcache d₁
  have hsecond := applyByteWith_result_of_cacheOk (applyByteWith_cacheOk hcache d₁) d₂
  rw [hpos] at hfirst
  rw [hzero, hnext] at hsecond
  refine ⟨_, _, exec_applyByte hs d₁, exec_applyByte hlive d₂, hfirst, hzero, hnext,
    status_of_live_ok hlive (applyByteWith_err ..), hsecond, fun hwrap => ?_⟩
  have hinc : inc s.ctr = 0 := by rw [hwrap]; decide
  exact ⟨hnext.trans hinc, hwrap ▸ hfirst, hinc ▸ hsecond⟩

/-- Settles O48: the data byte reaches `RESULT` only on an instance, and nothing without one. -/
theorem onlyTheResultDependsOnTheData : Obligations.OnlyTheResultDependsOnTheData := by
  intro s t₁ t₂ d₁ d₂ h₁ h₂
  obtain ⟨hs, rfl⟩ | ⟨hs, rfl⟩ := requireInstance_cases h₁
  · cases (exec_applyByte hs d₂).symm.trans h₂
    ext1 <;> simp
  · cases (requireInstance_dead hs).symm.trans h₂
    rfl

/-- `KSB` in integer form (R77). -/
theorem keystreamByte_eq_ofNat (N : Block) (c : Cursor) : keystreamByte N c =
    lane (BitVec.ofNat 4 (c.toNat % 16)) (keystream (BitVec.ofNat 128 (N.toNat + c.toNat / 16))) := by
  have hpos : c.setWidth 4 = BitVec.ofNat 4 (c.toNat % 16) := by bv_omega
  have hctr : N + (c >>> 4).setWidth 128 = BitVec.ofNat 128 (N.toNat + c.toNat / 16) := by
    apply BitVec.eq_of_toNat_eq
    simp [Nat.shiftRight_eq_div_pow]
  rw [keystreamByte, keystreamByteWith, hpos, hctr, keystream]

/-- The keystream byte at the cursor is byte `BPOS` of the block at the counter. -/
theorem keystreamByte_cursor (s : State) : keystreamByte s.nonce s.cursor = lane s.bpos (keystream s.ctr) := by
  obtain ⟨hctr, -⟩ := counterAndPositionAreTheCursorSplit s
  rw [keystreamByte_eq_ofNat, ← hctr, cursor_mod_16, BitVec.ofNat_toNat, BitVec.setWidth_eq]

theorem applyByteWith_result_eq_keystreamByte {s : State} (h : CacheOk s) (din : Byte) :
    (applyByteWith Config.encryptBlock din s).result
      = some ((din ^^^ keystreamByte s.nonce s.cursor).setWidth 128) := by
  rw [applyByteWith_result_of_cacheOk h, keystreamByte_cursor]

/-- Settles O44: a reached state meets the cache's invariant. -/
theorem applyByteUsesTheKeystreamByteAtTheCursor : Obligations.ApplyByteUsesTheKeystreamByteAtTheCursor :=
  ⟨keystreamByte_eq_ofNat, fun _ din hreach hs =>
    ⟨_, exec_applyByte hs din, applyByteWith_result_eq_keystreamByte (inv_of_reached hreach).cache din⟩⟩

end Sys2Proof.Machine

namespace Sys2Proof.Machine

open Sys2Proof.Safety

/-! ### A buffer in parts (R55, R78, R83) -/

theorem applyBuffer_nil (s : State) : applyBuffer [] s = .next ([], s) := rfl

/-- Settles O49. -/
theorem emptyBufferChangesNothing : Obligations.EmptyBufferChangesNothing := ⟨rfl, applyBuffer_nil⟩

theorem applyExpansion_append (p q : List Byte) : applyExpansion (p ++ q) = applyExpansion p ++ applyExpansion q :=
  List.map_append

/-- A buffer of any length is applied to its end, from every state, with one output a byte. -/
theorem applyBuffer_answers (bytes : List Byte) (s : State) :
    ∃ outs t, applyBuffer bytes s = .next (outs, t) ∧ outs.length = bytes.length := by
  obtain ⟨rs, t, hrun, hlen⟩ := runCommands_answers (applyExpansion bytes) s
  exact ⟨_, t, applyBuffer_of_runCommands hrun, by simpa [applyExpansion] using hlen⟩

theorem applyBuffer_append {p q : List Byte} {s t u : State} {o₁ o₂ : List (Option Byte)}
    (hp : applyBuffer p s = .next (o₁, t)) (hq : applyBuffer q t = .next (o₂, u)) :
    applyBuffer (p ++ q) s = .next (o₁ ++ o₂, u) := by
  obtain ⟨rs, t', hrun, -⟩ := runCommands_answers (applyExpansion p) s
  cases (applyBuffer_of_runCommands hrun).symm.trans hp
  obtain ⟨rs', u', hrun', -⟩ := runCommands_answers (applyExpansion q) t
  cases (applyBuffer_of_runCommands hrun').symm.trans hq
  rw [← List.map_append]
  apply applyBuffer_of_runCommands
  rw [applyExpansion_append]
  exact runCommands_append hrun hrun'

/-- Settles O51: the commands of the two calls, one after another, are the commands of the one call. -/
theorem splittingABufferChangesNothing : Obligations.SplittingABufferChangesNothing := by
  intro p q s
  obtain ⟨o₁, t, hp, hlen₁⟩ := applyBuffer_answers p s
  obtain ⟨o₂, u, hq, hlen₂⟩ := applyBuffer_answers q t
  exact ⟨o₁, t, o₂, u, hp, hq, applyBuffer_append hp hq, fun h₁ h₂ => ⟨hlen₁.trans h₁, hlen₂.trans h₂⟩⟩

/-! ### A buffer is XORed with the keystream (R76, R80) -/

/-- The bytes XORed with the keystream of `nonce` from cursor `c` on (R76). -/
def xorKeystream (nonce : Block) (c : Cursor) (bytes : List Byte) : List Byte :=
  bytes.mapIdx fun i b => b ^^^ keystreamByte nonce (c + BitVec.ofNat 132 i)

theorem map_some_xorKeystream (nonce : Block) (c : Cursor) (bytes : List Byte) :
    (xorKeystream nonce c bytes).map some
      = bytes.mapIdx fun i b => some (b ^^^ keystreamByte nonce (c + BitVec.ofNat 132 i)) := by
  simp [xorKeystream, List.mapIdx_eq_zipIdx_map]

theorem add_ofNat_succ (c : Cursor) (n : Nat) : c + BitVec.ofNat 132 (n + 1) = c + 1 + BitVec.ofNat 132 n := by
  rw [BitVec.ofNat_add, BitVec.add_comm (BitVec.ofNat 132 n), BitVec.add_assoc]
  rfl

@[simp] theorem xorKeystream_cons (nonce : Block) (c : Cursor) (b : Byte) (bytes : List Byte) :
    xorKeystream nonce c (b :: bytes) = (b ^^^ keystreamByte nonce c) :: xorKeystream nonce (c + 1) bytes := by
  simp only [xorKeystream, List.mapIdx_cons, add_ofNat_succ, BitVec.add_zero]

/-- XOR with the same keystream undoes itself (R80). -/
theorem xorKeystream_xorKeystream (nonce : Block) (c : Cursor) (bytes : List Byte) :
    xorKeystream nonce c (xorKeystream nonce c bytes) = bytes := by
  induction bytes generalizing c with
  | nil => rfl
  | cons b bytes ih => simp [ih]

theorem extractLsb'_setWidth_byte (b : Byte) : (b.setWidth 128).extractLsb' 0 8 = b := by
  rw [← BitVec.setWidth_eq_extractLsb' (by decide)]
  simp

/-- The host stores back the low byte of `RESULT`, which is the one `APPLY_BYTE` drives. -/
theorem applyByteWith_response_byte {s : State} (h : CacheOk s) (din : Byte) :
    (applyByteWith Config.encryptBlock din s).response.byte
      = some (din ^^^ keystreamByte s.nonce s.cursor) := by
  rw [Response.byte, State.response, applyByteWith_result_eq_keystreamByte h, Option.map_some,
    extractLsb'_setWidth_byte]

theorem applyBuffer_singleton {s : State} (hs : s.ivalid = true) (hcache : CacheOk s) (b : Byte) :
    applyBuffer [b] s
      = .next ([some (b ^^^ keystreamByte s.nonce s.cursor)], applyByteWith Config.encryptBlock b s) := by
  rw [← applyByteWith_response_byte hcache]
  exact applyBuffer_of_runCommands (bytes := [b])
    (runCommands_cons ((runCommand_encode _ s).trans (exec_applyByte hs b)) rfl)

/-- Each byte is XORed at the cursor, which then moves by one: by induction on the buffer. -/
theorem applyBuffer_eq_xorKeystream (bytes : List Byte) {s : State} (hs : s.ivalid = true) (hcache : CacheOk s) :
    ∃ t, applyBuffer bytes s = .next ((xorKeystream s.nonce s.cursor bytes).map some, t) ∧
      t.cursor = s.cursor + BitVec.ofNat 132 bytes.length ∧ t.nonce = s.nonce ∧ t.ivalid = true ∧ CacheOk t := by
  induction bytes generalizing s with
  | nil => exact ⟨s, rfl, (BitVec.add_zero _).symm, rfl, hs, hcache⟩
  | cons b bytes ih =>
    have hlive : (applyByteWith Config.encryptBlock b s).ivalid = true := by simpa using hs
    obtain ⟨t, hrest, hcur, hnonce, hiv, hcacheT⟩ := ih hlive (applyByteWith_cacheOk hcache b)
    rw [applyByteWith_nonce] at hrest hnonce
    rw [applyByteWith_cursor] at hrest hcur
    refine ⟨t, ?_, ?_, hnonce, hiv, hcacheT⟩
    · rw [xorKeystream_cons]
      exact applyBuffer_append (applyBuffer_singleton hs hcache b) hrest
    · rw [hcur, List.length_cons, add_ofNat_succ]

/-- Settles O50: the outputs are the XORed bytes, each of them defined. -/
theorem bufferIsXoredWithTheKeystreamFromTheCursor : Obligations.BufferIsXoredWithTheKeystreamFromTheCursor := by
  intro bytes s hs hcache
  rw [← map_some_xorKeystream]
  exact applyBuffer_eq_xorKeystream bytes hs hcache

/-- After a `SEEK` the cursor is the operand and the cache empty, so a buffer is XORed from there. -/
theorem applyBuffer_seekTo (offset : Block) (bytes : List Byte) {s : State} (hs : s.ivalid = true) :
    ∃ t, applyBuffer bytes (seekTo offset s)
        = .next ((xorKeystream s.nonce (offset.setWidth 132) bytes).map some, t) ∧
      t.nonce = s.nonce ∧ t.ivalid = true := by
  obtain ⟨t, hrun, -, hnonce, hiv, -⟩ :=
    applyBuffer_eq_xorKeystream bytes (s := seekTo offset s) hs (cacheOk_of_empty rfl)
  rw [seekTo_cursor] at hrun
  exact ⟨t, hrun, hnonce, hiv⟩

/-- Settles O52: both calls XOR with the keystream of the same nonce from the same cursor. -/
theorem applyingTwiceFromTheSameOffsetGivesTheBufferBack :
    Obligations.ApplyingTwiceFromTheSameOffsetGivesTheBufferBack := by
  intro o P s hs
  obtain ⟨t, hfirst, hnonce, hiv⟩ := applyBuffer_seekTo o P hs
  obtain ⟨u, hsecond, -, -⟩ := applyBuffer_seekTo o (xorKeystream s.nonce (o.setWidth 132) P) hiv
  rw [hnonce, xorKeystream_xorKeystream] at hsecond
  exact ⟨_, _, t, _, u, exec_seek hs o, hfirst, exec_seek hiv o, hsecond⟩

end Sys2Proof.Machine

namespace Sys2Proof

/-! ### Well-formed words are the ones the decoder gives a meaning (R51, R52) -/

theorem opcAssigned_eq_false_iff (c : Command) : c.opcAssigned = false ↔ c.opc = 0 ∨ 7 ≤ c.opc.toNat := by
  rw [Command.opcAssigned, Bool.and_eq_false_iff, decide_eq_false_iff_not, decide_eq_false_iff_not]
  bv_omega

theorem rsvZero_eq_false_iff (c : Command) : c.rsvZero = false ↔ c.rsv ≠ 0 := beq_eq_false_iff_ne

theorem arg8Zero_eq_false_iff (c : Command) :
    c.arg8Zero = false ↔ c.arg8 ≠ 0 ∧ c.opc.toNat ∈ [1, 3, 4, 5] := by
  rw [Command.arg8Zero, Bool.or_eq_false_iff, beq_eq_false_iff_ne, Bool.not_eq_false']
  simp [← BitVec.toNat_inj, or_assoc]

theorem wellFormed_eq_false_iff (c : Command) : c.wellFormed = false ↔ ∃ r, decode c = .illegal r := by
  rw [decode_illegal_iff, ← opcAssigned_eq_false_iff, ← rsvZero_eq_false_iff, ← arg8Zero_eq_false_iff,
    Command.wellFormed, Bool.and_eq_false_iff, Bool.and_eq_false_iff, or_assoc]

theorem wellFormed_of_decode_instr {c : Command} {i : Instr} (h : decode c = .instr i) : c.wellFormed = true := by
  rw [← Bool.not_eq_false, wellFormed_eq_false_iff]
  simp [h]

end Sys2Proof

namespace Sys2Proof.Machine

open Sys2Proof.Safety

/-! ### The instance check of the four commands that need an instance (R64, R90) -/

/-- A command that needs an instance checks for one, and its body completes with `OK` (R88). -/
theorem exec_eq_requireInstance {i : Instr} (h : needsInstance i = true) :
    ∃ body, exec i = requireInstance body ∧ ∀ s, (body s).err = .ok := by
  cases i with
  | new _ | newVar _ _ => contradiction
  | currentBlock => exact ⟨_, rfl, currentBlockWith_err _⟩
  | advanceBlock => exact ⟨_, rfl, advanceOneBlock_err⟩
  | seek offset => exact ⟨_, rfl, seekTo_err offset⟩
  | applyByte din => exact ⟨_, rfl, applyByteWith_err _ din⟩

theorem exec_of_needsInstance_dead {i : Instr} {s : State} (h : needsInstance i = true) (hs : s.ivalid = false) :
    exec i s = .next (raiseErr .noInstance s) := by
  obtain ⟨body, hexec, -⟩ := exec_eq_requireInstance h
  rw [hexec, requireInstance_dead hs]

theorem exec_of_needsInstance_live {i : Instr} {s : State} (h : needsInstance i = true) (hs : s.ivalid = true) :
    ∃ t, exec i s = .next t ∧ t.err = .ok := by
  obtain ⟨body, hexec, hok⟩ := exec_eq_requireInstance h
  exact ⟨body s, by rw [hexec, requireInstance_live hs], hok s⟩

/-- Settles O19: each of the four needs an instance, and the error writes its code only. -/
theorem commandsWithoutAnInstanceRaiseNoInstance : Obligations.CommandsWithoutAnInstanceRaiseNoInstance := by
  rintro i s hs (rfl | rfl | ⟨offset, rfl⟩ | ⟨din, rfl⟩) <;> exact exec_of_needsInstance_dead rfl hs

/-- Settles O22, from the two constructions and the four bodies. -/
theorem commandsOnAnInstanceAlwaysCompleteWithOk : Obligations.CommandsOnAnInstanceAlwaysCompleteWithOk :=
  ⟨fun nonce s => ⟨_, exec_new nonce s, construct_err nonce s⟩,
    fun opnd s => ⟨_, exec_newVar_16 opnd s, construct_err opnd s⟩,
    fun _ _ hs hi => exec_of_needsInstance_live hi hs⟩

/-! ### The priority of errors and their precision (R92, R93) -/

theorem expectedErr_of_illegal {c : Command} {r : IllegalReason} (h : decode c = .illegal r) (s : State) :
    expectedErr c s = .illegal :=
  if_pos ((wellFormed_eq_false_iff c).mpr ⟨r, h⟩)

/-- Past the check of the word (the other three outcomes of R92). -/
theorem expectedErr_of_instr {c : Command} {i : Instr} (h : decode c = .instr i) (s : State) :
    expectedErr c s = if 3 ≤ c.opc.toNat ∧ s.ivalid = false then .noInstance
      else if c.opc = 2 ∧ c.arg8 ≠ 16 then .initError else .ok := by
  rw [expectedErr, if_neg (by simp [wellFormed_of_decode_instr h])]

/-- From opcode 3 on, `INIT_ERROR` cannot happen and the instance decides. -/
theorem expectedErr_of_opc_ge {c : Command} {i : Instr} (h : decode c = .instr i) (hopc : 3 ≤ c.opc.toNat)
    (s : State) : expectedErr c s = if s.ivalid = false then .noInstance else .ok := by
  have hne : c.opc ≠ 2 := by rintro h2; simp [h2] at hopc
  simp only [expectedErr_of_instr h, hopc, hne, true_and, false_and, if_false]

theorem runCommand_err_of_needsInstance {c : Command} {i : Instr} (h : decode c = .instr i)
    (hi : needsInstance i = true) (hopc : 3 ≤ c.opc.toNat) (s : State) :
    ∃ t, runCommand c s = .next t ∧ t.err = expectedErr c s := by
  rw [runCommand_instr h, expectedErr_of_opc_ge h hopc]
  cases hs : s.ivalid with
  | false => exact ⟨_, exec_of_needsInstance_dead hi hs, rfl⟩
  | true => exact exec_of_needsInstance_live hi hs

/-- Settles O20, row by row of the opcode map. -/
theorem everyCommandReportsByPriority : Obligations.EveryCommandReportsByPriority := by
  intro c s
  cases hd : decode c with
  | illegal r => exact ⟨_, runCommand_illegal hd s, (expectedErr_of_illegal hd s).symm⟩
  | instr i =>
    cases decodeRow_of_eq hd with
    | new hrsv hopc harg =>
      refine ⟨_, (runCommand_instr hd s).trans (exec_new _ s), ?_⟩
      simp [expectedErr_of_instr hd, hopc]
    | newVar hrsv hopc =>
      by_cases hlen : c.arg8 = 16
      · rw [hlen] at hd
        refine ⟨_, (runCommand_instr hd s).trans (exec_newVar_16 _ s), ?_⟩
        simp [expectedErr_of_instr hd, hopc, hlen]
      · refine ⟨_, (runCommand_instr hd s).trans (exec_newVar_other hlen _ s), ?_⟩
        rw [expectedErr_of_instr hd, if_neg (by simp [hopc]), if_pos ⟨hopc, hlen⟩, raiseErr_err]
    | currentBlock _ hopc _ | advanceBlock _ hopc _ | seek _ hopc _ | applyByte _ hopc =>
      exact runCommand_err_of_needsInstance hd rfl (by simp [hopc]) s

/-- Settles O21: a command that does not complete with `OK` raises an error, which writes its code only. -/
theorem erroringCommandsChangeNothingElse : Obligations.ErroringCommandsChangeNothingElse := by
  intro c s t h herr
  obtain ⟨code, rfl⟩ | ⟨i, -, -, hok⟩ := runCommand_raises_or_completes h
  · rfl
  · exact absurd hok herr

/-! ### Disjoint regions on separate instances (R71, R97) -/

@[simp] theorem length_xorKeystream (nonce : Block) (c : Cursor) (bytes : List Byte) :
    (xorKeystream nonce c bytes).length = bytes.length := List.length_mapIdx

/-- Settles O54: the bytes for `q` are XORed with the keystream of one nonce from one cursor on both instances, which
the first reaches by `p` and the second by `SEEK`. -/
theorem separateInstancesCoverDisjointRegions : Obligations.SeparateInstancesCoverDisjointRegions := by
  intro p q o s t hs ht hcache hnonce hcur
  obtain ⟨s', hp, hcur', hnonce', hs', hcache'⟩ := applyBuffer_eq_xorKeystream p hs hcache
  obtain ⟨u, hq, -⟩ := applyBuffer_eq_xorKeystream q hs' hcache'
  obtain ⟨v, hseek, -⟩ := applyBuffer_seekTo o q ht
  rw [hnonce', hcur', hnonce, ← hcur] at hq
  exact ⟨_, _, u, _, v, applyBuffer_append hp hq, by simp, exec_seek ht o, hseek⟩

end Sys2Proof.Machine

namespace Sys2Proof.Machine

/-! ### Events the model gives no meaning (R102, R108, R110) -/

@[simp] theorem runInput_resetInside (c : Command) (s : State) :
    runInput (.resetInside c) s = .refused .resetInsideCommand := rfl

@[simp] theorem runInput_secondHost (c : Command) (s : State) :
    runInput (.secondHost c) s = .refused .secondHost := rfl

@[simp] theorem runInput_backendChange (s : State) : runInput .backendChange s = .refused .backendChanged := rfl

/-- Settles O11: the step takes the event as its input, and each of the three is refused by its own name. -/
theorem eventsWithoutMeaningAreRefused : Obligations.EventsWithoutMeaningAreRefused := fun _ c _ =>
  ⟨fun hin => (step_input hin).trans (runInput_resetInside c _),
    fun hin => (step_input hin).trans (runInput_secondHost c _),
    fun hin => (step_input hin).trans (runInput_backendChange _)⟩

/-! ### When `RESULT` is defined (R21, R111) -/

/-- Of the instructions that complete, the two that read the keystream drive `RESULT`. -/
theorem exec_completes_result_isSome_iff {i : Instr} {s t : State} (h : exec i s = .next t) (hok : t.err = .ok) :
    t.result.isSome = true ↔ i = .currentBlock ∨ ∃ din, i = .applyByte din := by
  obtain ⟨n, rfl | rfl, rfl⟩ | ⟨-, ⟨rfl, rfl⟩ | ⟨rfl, rfl⟩ | ⟨o, rfl, rfl⟩ | ⟨d, rfl, rfl⟩⟩ :=
    exec_completes_cases h hok
  all_goals simp

/-- A command that errs withdraws the result (R87). -/
theorem runCommand_result_of_err {c : Command} {s t : State} (h : runCommand c s = .next t) (herr : t.err ≠ .ok) :
    t.result = none := by
  rw [erroringCommandsChangeNothingElse c s t h herr]

/-- Settles O25: an erring command leaves no result, a completing one leaves a result when its instruction reads the
keystream, and a reset clears it. -/
theorem resultIsDefinedOnlyAfterTheTwoReadingCommands :
    Obligations.ResultIsDefinedOnlyAfterTheTwoReadingCommands := by
  refine ⟨fun c s t h => ?_, rfl, fun s t rest hin hst => ?_⟩
  · by_cases hok : t.err = .ok
    · cases hd : decode c with
      | illegal r =>
        cases (runCommand_illegal hd s).symm.trans h
        cases hok
      | instr i => simpa [hok] using exec_completes_result_isSome_iff ((runCommand_instr hd s).symm.trans h) hok
    · simp [runCommand_result_of_err h hok, hok]
  · cases (step_input hin).symm.trans hst
    exact takeReset_result _

end Sys2Proof.Machine
